-- ==== Sys2Proof/Word.lean ====
section
/-! DEFINITION. The word types of the block (spec/00_scope.md R9). Every value is unsigned. -/

namespace Sys2Proof

/-- An unsigned 8-bit value (R9). -/
abbrev Byte := BitVec 8

/-- An unsigned 16-bit value (R9). -/
abbrev Half := BitVec 16

/-- An unsigned 32-bit value (R9). -/
abbrev Word := BitVec 32

/-- The width of ERR_CODE (10_state.md R21). -/
abbrev Nibble := BitVec 4

end Sys2Proof
end

