-- ==== Sys2Proof/Syntax.lean ====
section
/-! DEFINITION. The commands: one constructor for each row of spec/opcode_table.json (30_encoding.md R82).
The only operand is the input byte d of R83; every byte is legal, so every term of this type is a command the
block has. -/

namespace Sys2Proof

/-- The seven commands of R82. -/
inductive Instr where
  /-- CRC.INIT (R102) -/
  | crcInit
  /-- CRC.BYTE d (R103) -/
  | crcByte (d : Byte)
  /-- ADL.INIT (R122) -/
  | adlInit
  /-- ADL.BYTE d (R123) -/
  | adlByte (d : Byte)
  /-- FRM.START (R145) -/
  | frmStart
  /-- FRM.BYTE d (R146) -/
  | frmByte (d : Byte)
  /-- FRM.END (R147) -/
  | frmEnd
deriving DecidableEq, Repr

end Sys2Proof
end

