-- ==== Sys2Proof/WellFormed.lean ====
section
/-! DEFINITION. The fields of a command word, the checks of 30_encoding.md R84 to R86 on them, and the names under
which a command fails (60_exceptions.md R171). Said apart from the decoder, so that the two can be held against
each other. -/

namespace Sys2Proof

/-- The ways a command fails (R171). The codes are `CmdError.code` (Machine/Ops.lean). -/
inductive CmdError where
  /-- RSV = 0 and OP is unassigned -/
  | illegalOpcode
  /-- RSV is not 0, or DATA is not 0 in a dataless command -/
  | reservedNonzero
  /-- FRM.BYTE or FRM.END while no frame is open -/
  | frmNotOpen
  /-- FRM.START while a frame is open -/
  | frmAlreadyOpen
deriving DecidableEq, Repr

/-- The three fields of the one command format (R80). -/
structure CmdFields where
  rsv  : Half
  op   : Byte
  data : Byte
deriving DecidableEq, Repr

/-- The opcodes whose DATA is reserved: CRC.INIT, ADL.INIT, FRM.START, FRM.END (R84). -/
def datalessOps : List Byte := [0x01, 0x11, 0x21, 0x23]

/-- The opcodes whose DATA is the input byte: CRC.BYTE, ADL.BYTE, FRM.BYTE (R83). -/
def byteOps : List Byte := [0x02, 0x12, 0x22]

/-- R85: RSV must be 0. -/
def CmdFields.rsvZero (f : CmdFields) : Bool := f.rsv == 0

/-- R86: OP must be one of the seven assigned values. -/
def CmdFields.opAssigned (f : CmdFields) : Bool := datalessOps.contains f.op || byteOps.contains f.op

/-- R84: DATA must be 0 in a dataless command. -/
def CmdFields.dataLegal (f : CmdFields) : Bool := !datalessOps.contains f.op || f.data == 0

/-- A word with these fields is a command of R82. -/
def CmdFields.wellFormed (f : CmdFields) : Bool := f.rsvZero && f.opAssigned && f.dataLegal

end Sys2Proof
end

