-- ==== Sys2Proof/Decode.lean ====
section
/-! DEFINITION. The decoder, total on every 32-bit word and rejecting by name (30_encoding.md R87), and the encoder
written from the table of R82. -/

namespace Sys2Proof

/-- What the decoder answers: a command, or the name of the check that failed first. -/
inductive Decoded where
  | command (i : Instr)
  | rejected (e : CmdError)
deriving DecidableEq, Repr

/-- The fields RSV = v[31:16], OP = v[15:8], DATA = v[7:0] (R80). -/
def fieldsOf (v : Word) : CmdFields where
  rsv  := v.extractLsb' 16 16
  op   := v.extractLsb' 8 8
  data := v.extractLsb' 0 8

/-- A dataless command with DATA ≠ 0 fails with RESERVED_NONZERO (R84). -/
def decodeDataless (d : Byte) (i : Instr) : Decoded :=
  if d ≠ 0x00 then .rejected .reservedNonzero else .command i

/-- The case over OP of R87, reached with RSV = 0. -/
def decodeOp (op d : Byte) : Decoded :=
  if op = 0x01 then decodeDataless d .crcInit
  else if op = 0x02 then .command (.crcByte d)
  else if op = 0x11 then decodeDataless d .adlInit
  else if op = 0x12 then .command (.adlByte d)
  else if op = 0x21 then decodeDataless d .frmStart
  else if op = 0x22 then .command (.frmByte d)
  else if op = 0x23 then decodeDataless d .frmEnd
  else .rejected .illegalOpcode

/-- The decoder: the checks run in the order RSV, OP, DATA (R87, R172). -/
def decode (v : Word) : Decoded :=
  let f := fieldsOf v
  if f.rsv ≠ 0x0000 then .rejected .reservedNonzero else decodeOp f.op f.data

/-- The word {RSV, OP, DATA} (R80). -/
def cmdWord (rsv : Half) (op d : Byte) : Word := (rsv ++ op) ++ d

/-- The word with RSV = 0 (R80). -/
def packWord (op d : Byte) : Word := cmdWord 0x0000 op d

/-- The encoder: the words of the table of R82. -/
def encode : Instr → Word
  | .crcInit   => packWord 0x01 0x00
  | .crcByte d => packWord 0x02 d
  | .adlInit   => packWord 0x11 0x00
  | .adlByte d => packWord 0x12 d
  | .frmStart  => packWord 0x21 0x00
  | .frmByte d => packWord 0x22 d
  | .frmEnd    => packWord 0x23 0x00

/-- The command word whose low nbits bits are w's and whose other bits are 0. Every command is one 32-bit word (R81). -/
def tableWord (nbits w : Nat) : Word := BitVec.ofNat 32 (w % 2 ^ nbits)

/-- The command the decoder reads from an instruction given as the opcode table numbers its bits. -/
def decodeTableWord (nbits w : Nat) : Option Instr :=
  match decode (tableWord nbits w) with
  | .command i  => some i
  | .rejected _ => none

end Sys2Proof
end

