-- ==== Sys2Proof/Config.lean ====
section
/-! DEFINITION. What an implementation fixes and the spec leaves OPEN (00_scope.md R8), and the one free value.
Nothing in Lean can evaluate an opaque constant, so a claim holds for each of its values. -/

namespace Sys2Proof

/-- BASE divided by 16. DESIGN CHOICE of form: BASE is any multiple of 16 (20_memory.md R51, U4). Log 7. -/
opaque Config.baseIndex : Nat

/-- BASE, the address of the register window: OPEN, a multiple of 16 (R51). -/
def Config.base : Nat := 16 * Config.baseIndex

/-- OUT_DEPTH less one: OPEN (20_memory.md R54, U3). Log 6. -/
opaque Config.outDepthPred : Nat

/-- OUT_DEPTH, the depth of OUT_FIFO in bytes: OPEN, an integer of at least 1 (R8, R54). -/
def Config.outDepth : Nat := Config.outDepthPred + 1

/-- What byte i of FRM_BUF holds when nothing has written it: a free value (20_memory.md R52, U1 'any value'). Log 3. -/
opaque Config.frmBufFree : Nat → Byte

end Sys2Proof
end

