-- ==== Sys2Proof/Machine/State.lean ====
section
/-! DEFINITION. The state of the block (10_state.md R21), its ghost state (R35), its surroundings (host, sink and
platform), the reasons a step can stop, and the state after reset (70_reset_and_hazards.md R190). -/

namespace Sys2Proof.Machine

/-- FRM_BUF as data: (index, byte) pairs, indices strictly rising (canonical form: `Memory.wf`, Machine/Ops.lean). -/
abbrev Memory := List Host.Cell

/-- The four registers of the window (10_state.md R30). -/
inductive Reg where
  | cmd
  | status
  | crcResult
  | adlerResult
deriving DecidableEq, Repr

/-- What a bus access does. -/
inductive BusOp where
  | read
  | write (v : Word)
deriving DecidableEq, Repr

/-- One host access at the byte address BASE + offset (00_scope.md R11), `size` bytes wide. An offset below 0 or above
15, a size other than 4 or a misaligned offset is outside the interface (20_memory.md R59). Log 7. -/
structure BusAccess where
  offset : Int
  size   : Nat
  op     : BusOp
deriving DecidableEq, Repr

/-- Who moves next (00_scope.md R12). A command step and a bus read step are both moves of the host. -/
inductive Move where
  /-- the host's next bus access is tried -/
  | host
  /-- one byte from EMIT_Q to OUT_FIFO (20_memory.md R54) -/
  | transfer
  /-- out_ready is 1 at a clock edge (20_memory.md R55, R56) -/
  | sink
  /-- the platform asserts reset (70_reset_and_hazards.md R190) -/
  | reset
deriving DecidableEq, Repr

/-- Ghost state (10_state.md R35): it states laws and no step depends on it. Log 12. -/
structure Ghost where
  /-- CRC_SEEN -/
  crcSeen : List Byte
  /-- ADL_SEEN -/
  adlSeen : List Byte
  /-- FRM_SEEN; `none` where the spec says it is undefined. Log 13. -/
  frmSeen : Option (List Byte)
  /-- OUT_LOG -/
  outLog  : List Byte
deriving DecidableEq, Repr

/-- The block's surroundings: what the host, the sink and the platform are going to do and what they have seen.
None of it is inside the block (log 1, 10, 11, 14, 15). -/
structure Env where
  /-- who moves next, first move first -/
  moves        : List Move
  /-- the accesses the host has still to issue, first one first -/
  hostQ        : List BusAccess
  /-- the access that stands on the bus and waits (20_memory.md R60) -/
  bus          : Option BusAccess
  /-- the words bus reads returned, oldest first (00_scope.md R13) -/
  reads        : List Word
  /-- the bytes the sink has taken since the last reset, oldest first -/
  taken        : List Byte
  /-- the bytes the sink had taken before the last reset, oldest first (70_reset_and_hazards.md R191) -/
  takenEarlier : List Byte
  /-- the level of out_ready once `moves` is used up (20_memory.md R56) -/
  outReady     : Bool
deriving DecidableEq, Repr

/-- Every element of the table of 10_state.md R21, under its own name, with the ghost state and the surroundings. -/
structure State where
  /-- CRC_STATE (R22) -/
  crcState : Word
  /-- ADL_A (R23) -/
  adlA     : Half
  /-- ADL_B (R23) -/
  adlB     : Half
  /-- FRM_OPEN (R24) -/
  frmOpen  : Bool
  /-- FRM_COUNT (R25) -/
  frmCount : Half
  /-- FRM_BUF (20_memory.md R52) -/
  frmBuf   : Memory
  /-- FRM_A (R26) -/
  frmA     : Half
  /-- FRM_B (R26) -/
  frmB     : Half
  /-- ERR (R27) -/
  err      : Bool
  /-- ERR_CODE (R27, 60_exceptions.md R171) -/
  errCode  : Nibble
  /-- EMIT_Q (20_memory.md R53) -/
  emitQ    : List Byte
  /-- OUT_FIFO (20_memory.md R54) -/
  outFifo  : List Byte
  ghost    : Ghost
  env      : Env
deriving DecidableEq, Repr

/-- Why a step stops with a fault. -/
inductive Fault where
  /-- Raised by the idle step of Machine/Agents.lean: output waits, OUT_FIFO is full and the sink takes no more bytes,
  so the wait never ends (U7 'stuck', 60_exceptions.md R186). Safe: the machine stops where the hardware waits. Log 4. -/
  | hang
  /-- Raised by FRM.BYTE and FRM.END when FRM_COUNT > 32768: the index does not exist (20_memory.md R52). Safe, and in no
  state that a run reaches (10_state.md R36). Log 5. -/
  | frmBufOutOfRange
deriving DecidableEq, Repr

/-- Why a step is refused. -/
inductive Refusal where
  /-- Raised by an arm of exec for a command that has no meaning yet; no arm does so now. Safe. -/
  | notModelled (mnemonic : String)
  /-- Raised by a host move whose access is not 4 bytes wide (20_memory.md R59). Safe. Log 8. -/
  | accessNotWord
  /-- Raised by a host move whose access lies outside the window (20_memory.md R51, R59). Safe. Log 8. -/
  | accessOutOfWindow
  /-- Raised by a host move whose offset is not a multiple of 4 (20_memory.md R59). Safe. Log 8. -/
  | accessMisaligned
deriving DecidableEq, Repr

/-- The outcome of one step of this machine. -/
abbrev Result := Host.Outcome State Fault Refusal

/-! One update for each element or pair of elements that is written together. Their lemmas: Laws/State.lean. -/

def State.setCrcState (s : State) (v : Word) : State := { s with crcState := v }
def State.setAdl (s : State) (p : Half × Half) : State := { s with adlA := p.1, adlB := p.2 }
def State.setFrmOpen (s : State) (b : Bool) : State := { s with frmOpen := b }
def State.setFrmCount (s : State) (n : Half) : State := { s with frmCount := n }
def State.setFrmBuf (s : State) (m : Memory) : State := { s with frmBuf := m }
def State.setFrmSums (s : State) (p : Half × Half) : State := { s with frmA := p.1, frmB := p.2 }
def State.setErr (s : State) (b : Bool) (c : Nibble) : State := { s with err := b, errCode := c }
def State.setEmitQ (s : State) (q : List Byte) : State := { s with emitQ := q }
def State.setOutFifo (s : State) (q : List Byte) : State := { s with outFifo := q }
def State.setGhost (s : State) (g : Ghost) : State := { s with ghost := g }
def State.setEnv (s : State) (e : Env) : State := { s with env := e }

/-- The machine right after reset (10_state.md R21, 70_reset_and_hazards.md R190). The spec leaves FRM_A, FRM_B and FRM_BUF
unspecified: DESIGN CHOICE 0 for the two sums (log 2), nothing listed for the buffer (log 3). The surroundings
hold no program and no schedule (log 1, 10); out_ready is high, DESIGN CHOICE (log 15). -/
def State.reset : State where
  crcState := 0xFFFFFFFF
  adlA     := 1
  adlB     := 0
  frmOpen  := false
  frmCount := 0
  frmBuf   := []
  frmA     := 0
  frmB     := 0
  err      := false
  errCode  := 0
  emitQ    := []
  outFifo  := []
  ghost    := { crcSeen := [], adlSeen := [], frmSeen := none, outLog := [] }
  env      := { moves := [], hostQ := [], bus := none, reads := [], taken := [], takenEarlier := [], outReady := true }

end Sys2Proof.Machine
end

