-- ==== Sys2Proof/Machine/Operands.lean ====
section
/-! DEFINITION. Operand forms, byte orders and fixed parameters (00_scope.md R7, R9, R10; 20_memory.md R62). -/

namespace Sys2Proof.Machine

/-- le16(h) = [h[7:0], h[15:8]] (R10). -/
def le16 (h : Half) : List Byte := [h.extractLsb' 0 8, h.extractLsb' 8 8]

/-- be32(w) = [w[31:24], w[23:16], w[15:8], w[7:0]] (R10). -/
def be32 (w : Word) : List Byte :=
  [w.extractLsb' 24 8, w.extractLsb' 16 8, w.extractLsb' 8 8, w.extractLsb' 0 8]

/-- {hi, lo}, a word from two halves (R9). -/
def joinHalves (hi lo : Half) : Word := hi ++ lo

/-- zext_32(d) (R9). -/
def zext32 (d : Byte) : Word := d.setWidth 32

/-- WINDOW, the chunk size and the capacity of FRM_BUF: 0x8000 = 32768 (R7, 42_framer.md R155). -/
def window : Nat := 32768

/-- The value of FRM_COUNT that means the buffer is full (10_state.md R25). -/
def fullCount : Half := 0x8000

/-- The zlib header 0x78 0x01 (R7). -/
def zlibHeader : List Byte := [0x78, 0x01]

/-- The whole BFINAL byte: 0x01 on the final block, 0x00 on every other (42_framer.md R141). -/
def bfinalByte (final : Bool) : Byte := if final then 0x01 else 0x00

/-- NLEN = 0xFFFF ^ LEN (42_framer.md R141). -/
def nlen (len : Half) : Half := 0xFFFF ^^^ len

end Sys2Proof.Machine
end

