-- ==== Sys2Proof/Machine/Checksum.lean ====
section
/-! DEFINITION. The two checksum functions: the byte updates the units carry out and the reference functions over a byte
sequence (40_crc32.md R100, R101; 41_adler32.md R120, R121). -/

namespace Sys2Proof.Machine

/-- The CRC polynomial, reflected form (00_scope.md R7). -/
def crcPoly : Word := 0xEDB88320

/-- The CRC initial value, which is also the final XOR (00_scope.md R7). -/
def crcOnes : Word := 0xFFFFFFFF

/-- One bit step (R100). -/
def crcStep1 (c : Word) : Word := if c.getLsbD 0 then (c >>> 1) ^^^ crcPoly else c >>> 1

/-- crc_update8(c, d) (R100): eight bit steps, bit 0 of d first. -/
def crcUpdate8 (c : Word) (d : Byte) : Word := Nat.repeat crcStep1 8 (c ^^^ zext32 d)

/-- The running value after the bytes of s (R101). -/
def crcRun (c : Word) (s : List Byte) : Word := s.foldl crcUpdate8 c

/-- crc32(s) (R101). -/
def crc32 (s : List Byte) : Word := crcRun crcOnes s ^^^ crcOnes

/-- The Adler modulus (00_scope.md R7). -/
def adlMod : Nat := 65521

/-- The Adler initial sums a = 1, b = 0 (00_scope.md R7). -/
def adlInitial : Half × Half := (1, 0)

/-- adl_update(a, b, d) (R120): b takes the new a; the sums are exact before each reduction. -/
def adlUpdate (p : Half × Half) (d : Byte) : Half × Half :=
  let a' := (p.1.toNat + d.toNat) % adlMod
  let b' := (p.2.toNat + a') % adlMod
  (BitVec.ofNat 16 a', BitVec.ofNat 16 b')

/-- The running sums after the bytes of s (R121). -/
def adlRun (p : Half × Half) (s : List Byte) : Half × Half := s.foldl adlUpdate p

/-- (b << 16) | a (R121). -/
def adlWord (p : Half × Half) : Word := joinHalves p.2 p.1

/-- adler32(s) (R121). -/
def adler32 (s : List Byte) : Word := adlWord (adlRun adlInitial s)

end Sys2Proof.Machine
end

