-- ==== Sys2Proof/Machine/Ops.lean ====
section
/-! DEFINITION. The operations the commands share: FRM_BUF, Emit and EmitBlock, taking a command error and the lock, and
the reset event, which is the only return from an error (20_memory.md R52, R53; 42_framer.md R144;
60_exceptions.md R174, R175, R177; 70_reset_and_hazards.md R190). -/

namespace Sys2Proof.Machine

/-- The listed byte at index i, or none where nothing has been written. -/
def Memory.read : Memory → Nat → Option Byte
  | [], _ => none
  | (k, b) :: m, i => if k = i then some b else Memory.read m i

/-- Write byte b at index i; the indices stay strictly rising. -/
def Memory.write : Memory → Nat → Byte → Memory
  | [], i, b => [(i, b)]
  | (k, c) :: m, i, b =>
    if i < k then (i, b) :: (k, c) :: m
    else if i = k then (i, b) :: m
    else (k, c) :: Memory.write m i b

/-- The indices rise strictly from `low` on, and none reaches the capacity. -/
def Memory.wfFrom : Nat → Memory → Bool
  | _, [] => true
  | low, (k, _) :: m => decide (low ≤ k) && decide (k < window) && Memory.wfFrom (k + 1) m

/-- The canonical form of FRM_BUF: indices strictly rising and below 32768 (20_memory.md R52). An unlisted index holds no
known byte, so no entry can be equal to what an unlisted index holds. -/
def Memory.wf (m : Memory) : Bool := Memory.wfFrom 0 m

/-- BUF[i]: the byte written there, else the free value (20_memory.md R52, U1). Log 3. -/
def bufRead (s : State) (i : Nat) : Byte := (Memory.read s.frmBuf i).getD (Config.frmBufFree i)

/-- BUF[0], ..., BUF[n-1]. -/
def bufTake (s : State) (n : Nat) : List Byte := (List.range n).map (bufRead s)

/-- BUF[i] <- b (00_scope.md R11). -/
def bufWrite (i : Nat) (b : Byte) (s : State) : State := s.setFrmBuf (Memory.write s.frmBuf i b)

/-- EmitSeq(bs): each byte joins the end of EMIT_Q and of the ghost OUT_LOG (00_scope.md R11, 20_memory.md R53). -/
def emitSeq (bs : List Byte) (s : State) : State :=
  (s.setEmitQ (s.emitQ ++ bs)).setGhost { s.ghost with outLog := s.ghost.outLog ++ bs }

/-- Emit(b) (00_scope.md R11). -/
def emit (b : Byte) (s : State) : State := emitSeq [b] s

/-- EmitBlock(f, n) (42_framer.md R144): BFINAL, LEN, NLEN, then the first n bytes of FRM_BUF. -/
def emitBlock (final : Bool) (n : Half) (s : State) : State :=
  let s1 := emit (bfinalByte final) s
  let s2 := emitSeq (le16 n) s1
  let s3 := emitSeq (le16 (nlen n)) s2
  emitSeq (bufTake s3 n.toNat) s3

/-- The error codes (60_exceptions.md R171). -/
def CmdError.code : CmdError → Nibble
  | .illegalOpcode   => 0x1
  | .reservedNonzero => 0x2
  | .frmNotOpen      => 0x3
  | .frmAlreadyOpen  => 0x4

/-- raise CmdError(code), the block's whole trap entry (60_exceptions.md R174): ERR and ERR_CODE, and nothing else. -/
def raiseError (e : CmdError) (s : State) : State := s.setErr true (CmdError.code e)

/-- The lock (60_exceptions.md R175): while ERR = 1 a command is ignored. -/
def unlessLocked (s : State) (r : Result) : Result := if s.err then .next s else r

/-- A command that reads or writes FRM_BUF finds FRM_COUNT in 0..32768 in every state a run reaches (10_state.md R25). Beyond
that the index does not exist (20_memory.md R52). Log 5. -/
def withinBuffer (s : State) (t : State) : Result :=
  if window < s.frmCount.toNat then .fault .frmBufOutOfRange else .next t

/-- The reset event (70_reset_and_hazards.md R190): every element takes its reset value, queued output is discarded and a
waiting access is abandoned. The host's later accesses, the schedule, the words read and the bytes taken are
outside the block and stay. Log 11. -/
def resetEvent (s : State) : State :=
  State.reset.setEnv
    { s.env with bus := none, taken := [], takenEarlier := s.env.takenEarlier ++ s.env.taken }

end Sys2Proof.Machine
end

