-- ==== Sys2Proof/Machine/Adler.lean ====
section
/-! DEFINITION. The Adler unit's commands (41_adler32.md R122, R123). -/

namespace Sys2Proof.Machine

/-- ADL.INIT (R122): ADL_A <- 1; ADL_B <- 0; the ghost ADL_SEEN becomes []. -/
def execAdlInit (s : State) : Result :=
  unlessLocked s (.next ((s.setAdl adlInitial).setGhost { s.ghost with adlSeen := [] }))

/-- ADL.BYTE d (R123): (ADL_A, ADL_B) <- adl_update(ADL_A, ADL_B, d); the ghost ADL_SEEN takes d. -/
def execAdlByte (d : Byte) (s : State) : Result :=
  unlessLocked s (.next ((s.setAdl (adlUpdate (s.adlA, s.adlB) d)).setGhost
    { s.ghost with adlSeen := s.ghost.adlSeen ++ [d] }))

end Sys2Proof.Machine
end

