-- ==== Sys2Proof/Machine/Crc.lean ====
section
/-! DEFINITION. The CRC unit's commands (40_crc32.md R102, R103). -/

namespace Sys2Proof.Machine

/-- CRC.INIT (R102): CRC_STATE <- 0xFFFFFFFF; the ghost CRC_SEEN becomes []. -/
def execCrcInit (s : State) : Result :=
  unlessLocked s (.next ((s.setCrcState crcOnes).setGhost { s.ghost with crcSeen := [] }))

/-- CRC.BYTE d (R103): CRC_STATE <- crc_update8(CRC_STATE, d); the ghost CRC_SEEN takes d. -/
def execCrcByte (d : Byte) (s : State) : Result :=
  unlessLocked s (.next ((s.setCrcState (crcUpdate8 s.crcState d)).setGhost
    { s.ghost with crcSeen := s.ghost.crcSeen ++ [d] }))

end Sys2Proof.Machine
end

