-- ==== Sys2Proof/Machine/Framer.lean ====
section
/-! DEFINITION. The framer's commands (42_framer.md R145 to R147). -/

namespace Sys2Proof.Machine

/-- The state FRM.START leaves when no frame is open (R145). -/
def openFrame (s : State) : State :=
  let s1 := emitSeq zlibHeader s
  let s2 := (s1.setFrmOpen true).setFrmCount 0
  (s2.setFrmSums adlInitial).setGhost { s2.ghost with frmSeen := some [] }

/-- FRM.START (R145): code 4 if a frame is open. -/
def execFrmStart (s : State) : Result :=
  unlessLocked s (.next (if s.frmOpen then raiseError .frmAlreadyOpen s else openFrame s))

/-- A full buffer with more input is emitted as a non-final block (R146). -/
def flushFull (s : State) : State :=
  if s.frmCount = fullCount then (emitBlock false fullCount s).setFrmCount 0 else s

/-- BUF[FRM_COUNT] <- d, FRM_COUNT <- FRM_COUNT + 1, and the framer's sums take d (R146). -/
def storeByte (d : Byte) (s : State) : State :=
  let s1 := bufWrite s.frmCount.toNat d s
  let s2 := s1.setFrmCount (s1.frmCount + 1)
  (s2.setFrmSums (adlUpdate (s2.frmA, s2.frmB) d)).setGhost
    { s2.ghost with frmSeen := s2.ghost.frmSeen.map (· ++ [d]) }

/-- FRM.BYTE d (R146): code 3 if no frame is open. -/
def execFrmByte (d : Byte) (s : State) : Result :=
  unlessLocked s (if s.frmOpen then withinBuffer s (storeByte d (flushFull s))
    else .next (raiseError .frmNotOpen s))

/-- The state FRM.END leaves when a frame is open (R147). -/
def closeFrame (s : State) : State :=
  let s1 := emitBlock true s.frmCount s
  let s2 := emitSeq (be32 (joinHalves s1.frmB s1.frmA)) s1
  ((s2.setFrmOpen false).setFrmCount 0).setGhost { s2.ghost with frmSeen := none }

/-- FRM.END (R147): code 3 if no frame is open. -/
def execFrmEnd (s : State) : Result :=
  unlessLocked s (if s.frmOpen then withinBuffer s (closeFrame s) else .next (raiseError .frmNotOpen s))

end Sys2Proof.Machine
end

