-- ==== Sys2Proof/Machine/Dispatch.lean ====
section
/-! DEFINITION. One arm per command, each one direct call of its meaning. -/

namespace Sys2Proof.Machine

def exec (i : Instr) (s : State) : Host.Outcome State Fault Refusal :=
  match i with
  | .crcInit => Sys2Proof.Machine.execCrcInit s
  | .crcByte d => Sys2Proof.Machine.execCrcByte d s
  | .adlInit => Sys2Proof.Machine.execAdlInit s
  | .adlByte d => Sys2Proof.Machine.execAdlByte d s
  | .frmStart => Sys2Proof.Machine.execFrmStart s
  | .frmByte d => Sys2Proof.Machine.execFrmByte d s
  | .frmEnd => Sys2Proof.Machine.execFrmEnd s

end Sys2Proof.Machine
end

