-- ==== Sys2Proof/Machine/Flags.lean ====
section
/-! DEFINITION. The four words the host can read (10_state.md R30 to R34). They are views of the state and hold nothing. -/

namespace Sys2Proof.Machine

/-- STATUS = {FRM_COUNT[15:0], 8'b0, ERR_CODE[3:0], 2'b0, ERR, FRM_OPEN} (R32). -/
def statusWord (s : State) : Word :=
  s.frmCount ++ (0#8 ++ (s.errCode ++ (0#2 ++ (BitVec.ofBool s.err ++ BitVec.ofBool s.frmOpen))))

/-- CRC_RESULT = CRC_STATE ^ 0xFFFFFFFF (R33). -/
def crcResultWord (s : State) : Word := s.crcState ^^^ crcOnes

/-- ADLER_RESULT = {ADL_B, ADL_A} (R34). -/
def adlerResultWord (s : State) : Word := joinHalves s.adlB s.adlA

/-- What a read of a register returns (20_memory.md R58); CMD reads as 0 (R31). -/
def readReg (r : Reg) (s : State) : Word :=
  match r with
  | .cmd         => 0x00000000
  | .status      => statusWord s
  | .crcResult   => crcResultWord s
  | .adlerResult => adlerResultWord s

end Sys2Proof.Machine
end

