-- ==== Sys2Proof/Machine/Bus.lean ====
section
/-! DEFINITION. The host's side: the command step, the bus accesses and the bus stall (20_memory.md R51, R57 to R60;
30_encoding.md R87; 60_exceptions.md R175). -/

namespace Sys2Proof.Machine

/-- CommandStep(v) (30_encoding.md R87): ignored while locked, else decoded and carried out, or failed. -/
def commandStep (v : Word) (s : State) : Result :=
  if s.err then .next s
  else match decode v with
    | .command i  => exec i s
    | .rejected e => .next (raiseError e s)

/-- The register at an aligned offset inside the window (10_state.md R30). -/
def regAt (offset : Int) : Reg :=
  if offset = 0x0 then .cmd else if offset = 0x4 then .status else if offset = 0x8 then .crcResult else .adlerResult

/-- The register an access reaches, or why it is outside the interface (20_memory.md R51, R59). Log 8. -/
def accessTarget (a : BusAccess) : Except Refusal Reg :=
  if a.size ≠ 4 then .error .accessNotWord
  else if a.offset < 0 ∨ 16 ≤ a.offset then .error .accessOutOfWindow
  else if a.offset % 4 ≠ 0 then .error .accessMisaligned
  else .ok (regAt a.offset)

/-- The access at a byte address of the platform (20_memory.md R51). Log 7. -/
def accessAtAddress (address size : Nat) (op : BusOp) : BusAccess :=
  { offset := (address : Int) - (Config.base : Int), size := size, op := op }

/-- The offset of a register (10_state.md R30). -/
def regOffset : Reg → Int
  | .cmd => 0x0
  | .status => 0x4
  | .crcResult => 0x8
  | .adlerResult => 0xC

/-- BusRead(off) as an access (00_scope.md R11). -/
def busRead (r : Reg) : BusAccess := { offset := regOffset r, size := 4, op := .read }

/-- BusWrite(off, v) as an access (00_scope.md R11). -/
def busWrite (r : Reg) (v : Word) : BusAccess := { offset := regOffset r, size := 4, op := .write v }

/-- The word a read returns goes to the host (00_scope.md R13). Log 14. -/
def recordRead (w : Word) (s : State) : State := s.setEnv { s.env with reads := s.env.reads ++ [w] }

/-- An access the block has accepted (20_memory.md R57, R58): a read changes no state of the block, a write to a read-only
register is ignored, a write to CMD is a command step. -/
def performAccess (r : Reg) (op : BusOp) (s : State) : Result :=
  match op, r with
  | .read, r             => .next (recordRead (readReg r s) s)
  | .write v, .cmd       => commandStep v s
  | .write _, .status    => .next s
  | .write _, .crcResult => .next s
  | .write _, .adlerResult => .next s

/-- The access that comes next, with the state in which it has left the bus or the host: the one that waits, else the host's
next one. -/
def nextAccess (s : State) : Option (BusAccess × State) :=
  match s.env.bus, s.env.hostQ with
  | some a, _      => some (a, s.setEnv { s.env with bus := none })
  | none, a :: q   => some (a, s.setEnv { s.env with hostQ := q })
  | none, []       => none

/-- A move of the host: its next access is refused if it is outside the interface, carried out if EMIT_Q is empty, and waits
on the bus otherwise (20_memory.md R57 to R60). With no access left nothing happens. -/
def hostMove (s : State) : Result :=
  match nextAccess s with
  | none => .next s
  | some (a, s1) =>
    match accessTarget a with
    | .error r => .refused r
    | .ok r => if s1.emitQ.isEmpty then performAccess r a.op s1 else .next (s1.setEnv { s1.env with bus := some a })

end Sys2Proof.Machine
end

