-- ==== Sys2Proof/Machine/Port.lean ====
section
/-! DEFINITION. The output side: the transfer step, the sink step and the OUT port (20_memory.md R54 to R56). -/

namespace Sys2Proof.Machine

/-- The condition of the transfer step (R54). -/
def transferEnabled (s : State) : Bool := !s.emitQ.isEmpty && decide (s.outFifo.length < Config.outDepth)

/-- The transfer step (R54): the first byte of EMIT_Q moves to the end of OUT_FIFO. Where it is not enabled nothing happens. -/
def transferStep (s : State) : State :=
  match s.emitQ with
  | [] => s
  | b :: q => if s.outFifo.length < Config.outDepth then (s.setEmitQ q).setOutFifo (s.outFifo ++ [b]) else s

/-- out_valid (R56). -/
def outValid (s : State) : Bool := !s.outFifo.isEmpty

/-- out_data (R56); there is none while out_valid is 0. -/
def outData (s : State) : Option Byte := s.outFifo.head?

/-- The sink step (R55): out_ready is 1 at a clock edge. Where out_valid is 0 nothing happens. -/
def sinkStep (s : State) : State :=
  match s.outFifo with
  | [] => s
  | b :: q => (s.setOutFifo q).setEnv { s.env with taken := s.env.taken ++ [b] }

/-- The state once the sink has taken all pending output, where EMIT_Q is not empty (20_memory.md R60 lets the next access in
only then). Where EMIT_Q is empty it is the state itself. -/
def drainOutput (s : State) : State :=
  if s.emitQ.isEmpty then s
  else ((s.setEmitQ []).setOutFifo []).setEnv { s.env with taken := s.env.taken ++ s.outFifo ++ s.emitQ }

end Sys2Proof.Machine
end

