-- ==== Sys2Proof/Machine/Agents.lean ====
section
/-! DEFINITION. The moves of the agents and who moves when the schedule is used up (00_scope.md R12; 20_memory.md R54;
60_exceptions.md R186; 70_reset_and_hazards.md R195). -/

namespace Sys2Proof.Machine

/-- One scheduled move (00_scope.md R12). -/
def runMove (m : Move) (s : State) : Result :=
  match m with
  | .host     => hostMove s
  | .transfer => .next (transferStep s)
  | .sink     => .next (sinkStep s)
  | .reset    => .next (resetEvent s)

/-- The host has an access that the block can take now. -/
def hostReady (s : State) : Bool := s.emitQ.isEmpty && (nextAccess s).isSome

/-- The move taken when the schedule is used up. An enabled transfer comes first, so the transfer step is weakly fair (20_memory.md
R54); then the host, once EMIT_Q is empty; then the sink, if out_ready is high. What is left with output waiting is a
hang (U7, 60_exceptions.md R186); what is left without is an idle block, which holds its state (60_exceptions.md
R185). Log 1, 4. -/
def idleMove (s : State) : Result :=
  if transferEnabled s then .next (transferStep s)
  else if hostReady s then hostMove s
  else if s.env.outReady && outValid s then .next (sinkStep s)
  else if s.emitQ.isEmpty then .next s
  else .fault .hang

/-- One step of the machine. -/
def stepMove (s : State) : Result :=
  match s.env.moves with
  | []        => idleMove s
  | m :: rest => runMove m (s.setEnv { s.env with moves := rest })

/-- The state in which the next step is a host write of the word v to CMD: earlier output has drained, the write stands on
the bus, and the host moves next. An access that waited there comes after it. Log 10. -/
def placeCommand (s : State) (v : Word) : State :=
  let s1 := drainOutput s
  s1.setEnv { s1.env with
    moves := .host :: s1.env.moves
    bus   := some (busWrite .cmd v)
    hostQ := s1.env.bus.toList ++ s1.env.hostQ }

end Sys2Proof.Machine
end

