-- ==== Sys2Proof/Machine/Step.lean ====
section
/-! DEFINITION. One step of the machine, and where its next command word is placed. -/

namespace Sys2Proof.Machine

/-- One step: the scheduled move, or the idle move when none is scheduled (Machine/Agents.lean). -/
def step (s : State) : Host.Outcome State Fault Refusal := stepMove s

/-- s with the command word placed where the very next step takes it: a write to CMD on the bus, the host to move (log 10). -/
def State.withFetchWord (s : State) (nbits w : Nat) : State := placeCommand s (tableWord nbits w)

end Sys2Proof.Machine
end

