-- ==== Sys2Proof/Machine/Asm.lean ====
section
/-! DEFINITION. The assembly language: statements, the pseudo-instructions, and the text they are written in (30_encoding.md
R88, R89). A program is the host's list of bus accesses. Log 17. -/

namespace Sys2Proof.Machine

/-- The three units (00_scope.md R1), as a mnemonic's first part names them. -/
inductive AsmUnit where
  | crc
  | adl
  | frm
deriving DecidableEq, Repr

/-- A byte operand as it is written (R88); a character stands as its code. -/
inductive AsmOperand where
  | dec (n : Nat)
  | hex (n : Nat)
  | chr (c : Nat)
deriving DecidableEq, Repr

/-- One item of a string operand: a character or `\xHH` (R89). -/
inductive StrItem where
  | chr (c : Nat)
  | esc (n : Nat)
deriving DecidableEq, Repr

/-- A statement (R88, R89). -/
inductive Stmt where
  /-- CRC.INIT, ADL.INIT, FRM.START -/
  | start (u : AsmUnit)
  /-- CRC.BYTE, ADL.BYTE, FRM.BYTE -/
  | byte (u : AsmUnit) (o : AsmOperand)
  /-- FRM.END -/
  | finish
  /-- READ -/
  | read (r : Reg)
  /-- CRC.STR, ADL.STR, FRM.STR -/
  | str (u : AsmUnit) (s : List StrItem)
  /-- CRC.BYTES, ADL.BYTES, FRM.BYTES -/
  | bytes (u : AsmUnit) (os : List AsmOperand)
  /-- CRC.OF, ADL.OF, FRM.FRAME -/
  | whole (u : AsmUnit) (s : List StrItem)
deriving DecidableEq, Repr

/-- A printable ASCII code. -/
def printable (c : Nat) : Bool := decide (32 ≤ c) && decide (c ≤ 126)

/-- The byte with a number as its value; an operand outside 0..255 is refused (R88). -/
def byteOf (n : Nat) : Option Byte := if n ≤ 255 then some (BitVec.ofNat 8 n) else none

/-- The byte of an operand; a character literal is printable and neither `'` (39) nor `\` (92) (R88). -/
def AsmOperand.value : AsmOperand → Option Byte
  | .dec n => byteOf n
  | .hex n => byteOf n
  | .chr c => if printable c && c != 39 && c != 92 then byteOf c else none

/-- The byte of a string item; a character is printable and neither `"` (34) nor `\` (92) (R89). -/
def StrItem.value : StrItem → Option Byte
  | .chr c => if printable c && c != 34 && c != 92 then byteOf c else none
  | .esc n => byteOf n

/-- All the values, or none if one is refused. -/
def allBytes : List (Option Byte) → Option (List Byte)
  | [] => some []
  | none :: _ => none
  | some b :: os => (allBytes os).map (b :: ·)

/-- The command that starts a unit's computation. -/
def startInstr : AsmUnit → Instr
  | .crc => .crcInit
  | .adl => .adlInit
  | .frm => .frmStart

/-- The command that feeds a unit one byte. -/
def byteInstr : AsmUnit → Byte → Instr
  | .crc, d => .crcByte d
  | .adl, d => .adlByte d
  | .frm, d => .frmByte d

/-- CRC.OF and ADL.OF have no closing command; FRM.FRAME closes the frame (R89). -/
def finishInstrs : AsmUnit → List Instr
  | .crc => []
  | .adl => []
  | .frm => [.frmEnd]

/-- The commands a statement expands into, in order (R88, R89); none if the assembler refuses it. READ has no command. -/
def Stmt.commands : Stmt → Option (List Instr)
  | .start u    => some [startInstr u]
  | .byte u o   => o.value.map fun d => [byteInstr u d]
  | .finish     => some [.frmEnd]
  | .read _     => some []
  | .str u s    => (allBytes (s.map StrItem.value)).map fun bs => bs.map (byteInstr u)
  | .bytes u os => (allBytes (os.map AsmOperand.value)).map fun bs => bs.map (byteInstr u)
  | .whole u s  => (allBytes (s.map StrItem.value)).map fun bs =>
      [startInstr u] ++ bs.map (byteInstr u) ++ finishInstrs u

/-- Running a command means BusWrite(0x0, word) (R88). -/
def commandAccess (i : Instr) : BusAccess := busWrite .cmd (encode i)

/-- The bus accesses a statement means (R88); READ of CMD is no statement. -/
def Stmt.accesses : Stmt → Option (List BusAccess)
  | .read .cmd => none
  | .read r    => some [Sys2Proof.Machine.busRead r]
  | s          => s.commands.map fun is => is.map commandAccess

/-- A statement the assembler accepts. -/
def Stmt.wellFormed (s : Stmt) : Bool := s.accesses.isSome

/-! The text, as a list of character codes. -/

/-- The codes of a text. -/
def codesOf (s : String) : List Nat := s.toList.map Char.toNat

/-- Space or tab. -/
def isBlank (c : Nat) : Bool := c == 32 || c == 9

/-- Drop leading blanks. -/
def skipBlanks (cs : List Nat) : List Nat := cs.dropWhile isBlank

/-- Nothing but an optional comment after `;` (59) is left (R88). -/
def atEnd (cs : List Nat) : Bool :=
  match skipBlanks cs with
  | [] => true
  | c :: _ => c == 59

/-- The value of a digit in base 16. -/
def digitValue (c : Nat) : Option Nat :=
  if 48 ≤ c ∧ c ≤ 57 then some (c - 48)
  else if 65 ≤ c ∧ c ≤ 70 then some (c - 55)
  else if 97 ≤ c ∧ c ≤ 102 then some (c - 87)
  else none

/-- A digit of the base. -/
def isDigit (base c : Nat) : Bool :=
  match digitValue c with
  | some v => decide (v < base)
  | none => false

/-- The number at the front, at least one digit, and what follows it. -/
def parseNumber (base : Nat) (cs : List Nat) : Option (Nat × List Nat) :=
  let ds := cs.takeWhile (isDigit base)
  if ds.isEmpty then none
  else some (ds.foldl (fun n c => base * n + (digitValue c).getD 0) 0, cs.dropWhile (isDigit base))

/-- A byte operand at the front: `'c'`, `0x..` or a decimal number (R88). -/
def parseOperand : List Nat → Option (AsmOperand × List Nat)
  | 39 :: c :: 39 :: rest => some (.chr c, rest)
  | 48 :: 120 :: rest => (parseNumber 16 rest).map fun r => (.hex r.1, r.2)
  | cs => (parseNumber 10 cs).map fun r => (.dec r.1, r.2)

/-- The items of a string up to its closing `"` (34), and what follows it (R89). -/
def parseItems : List Nat → Option (List StrItem × List Nat)
  | [] => none
  | 34 :: rest => some ([], rest)
  | 92 :: 120 :: h :: l :: rest =>
    match digitValue h, digitValue l with
    | some x, some y => (parseItems rest).map fun r => (.esc (16 * x + y) :: r.1, r.2)
    | _, _ => none
  | c :: rest => if c == 92 then none else (parseItems rest).map fun r => (.chr c :: r.1, r.2)

/-- A string operand at the front (R89). -/
def parseString (cs : List Nat) : Option (List StrItem × List Nat) :=
  match cs with
  | 34 :: rest => parseItems rest
  | _ => none

/-- One or more byte operands parted by `,` (44); at most `fuel` of them (R89). -/
def parseOperands : Nat → List Nat → Option (List AsmOperand × List Nat)
  | 0, _ => none
  | fuel + 1, cs =>
    match parseOperand (skipBlanks cs) with
    | none => none
    | some (o, rest) =>
      match skipBlanks rest with
      | 44 :: more => (parseOperands fuel more).map fun r => (o :: r.1, r.2)
      | _ => some ([o], rest)

/-- The register a READ names (R88). -/
def readName (w : List Nat) : Option Reg :=
  if w = codesOf "STATUS" then some .status
  else if w = codesOf "CRC_RESULT" then some .crcResult
  else if w = codesOf "ADLER_RESULT" then some .adlerResult
  else none

/-- The unit a mnemonic's first four characters name. -/
def unitName (w : List Nat) : Option AsmUnit :=
  if w = codesOf "CRC." then some .crc
  else if w = codesOf "ADL." then some .adl
  else if w = codesOf "FRM." then some .frm
  else none

/-- A statement whose operands have been read and after which only a comment stands. -/
def ended {α : Type} (f : α → Stmt) (r : Option (α × List Nat)) : Option Stmt :=
  match r with
  | some (x, rest) => if atEnd rest then some (f x) else none
  | none => none

/-- The statement of a unit with the mnemonic's second part `op` and what follows it (R82, R89). -/
def parseUnitStmt (u : AsmUnit) (op rest : List Nat) : Option Stmt :=
  let args := skipBlanks rest
  if op = codesOf (if u = .frm then "START" else "INIT") then ended (fun _ => .start u) (some ((), rest))
  else if op = codesOf "END" ∧ u = .frm then ended (fun _ => .finish) (some ((), rest))
  else if op = codesOf "BYTE" then ended (.byte u) (parseOperand args)
  else if op = codesOf "STR" then ended (.str u) (parseString args)
  else if op = codesOf "BYTES" then ended (.bytes u) (parseOperands (args.length + 1) args)
  else if op = codesOf (if u = .frm then "FRAME" else "OF") then ended (.whole u) (parseString args)
  else none

/-- A character that ends a mnemonic or a register name. DESIGN CHOICE: only a blank or the `;` (59) of a comment does, so a
blank must part a mnemonic from its operand (30_encoding.md R88 says only that the operand follows). Log 17. -/
def endsWord (c : Nat) : Bool := isBlank c || c == 59

/-- A source line: its statement, or none of them where it holds only a comment or nothing (R88). The outer `none` means
that the line is refused. DESIGN CHOICE: a line whose operand follows its mnemonic, or READ, without a blank between
is refused (log 17). -/
def parseLine (line : List Nat) : Option (Option Stmt) :=
  if atEnd line then some none
  else
    let cs := skipBlanks line
    let w := cs.takeWhile fun c => !endsWord c
    let rest := cs.dropWhile fun c => !endsWord c
    if w = codesOf "READ" then
      let args := skipBlanks rest
      let name := args.takeWhile fun c => !endsWord c
      (ended Stmt.read ((readName name).map fun r => (r, args.dropWhile fun c => !endsWord c))).map some
    else
      match unitName (w.take 4) with
      | some u => (parseUnitStmt u (w.drop 4) rest).map some
      | none => none

/-- The lines of a text, parted at newlines (10). -/
def linesOf : List Nat → List (List Nat)
  | [] => [[]]
  | c :: cs =>
    match linesOf cs with
    | l :: ls => if c == 10 then [] :: l :: ls else (c :: l) :: ls
    | [] => [[c]]

/-- The accesses of a list of lines, in order. -/
def assembleLines : List (List Nat) → Option (List BusAccess)
  | [] => some []
  | l :: ls =>
    match parseLine l with
    | none => none
    | some none => assembleLines ls
    | some (some s) =>
      match s.accesses, assembleLines ls with
      | some as, some more => some (as ++ more)
      | _, _ => none

/-- The host program a source text stands for, or none if the assembler refuses it (R88, R89). -/
def assemble (text : String) : Option (List BusAccess) := assembleLines (linesOf (codesOf text))

/-- The machine with a program placed for the host to issue after what it has still to issue. Log 10. -/
def withProgram (as : List BusAccess) (s : State) : State := s.setEnv { s.env with hostQ := s.env.hostQ ++ as }

end Sys2Proof.Machine
end

