-- ==== Sys2Proof/Machine/Frame.lean ====
section
/-! DEFINITION. The stream format of the framer as a function of the whole input (42_framer.md R140 to R143), and the
decoder that undoes it (R159). The block contains neither: they state its laws. -/

namespace Sys2Proof.Machine

/-- block(f, c) (R141). -/
def block (final : Bool) (c : List Byte) : List Byte :=
  let len : Half := BitVec.ofNat 16 c.length
  [bfinalByte final] ++ le16 len ++ le16 (nlen len) ++ c

/-- k = max(1, ceil(n / 32768)), the number of blocks (R142). -/
def blockCount (n : Nat) : Nat := max 1 ((n + (window - 1)) / window)

/-- Chunk j = s[32768*j .. min(32768*(j+1), n)) (R142). -/
def chunk (s : List Byte) (j : Nat) : List Byte := (s.drop (window * j)).take window

/-- The blocks of frame(s), in order; only the last has BFINAL = 1 (R142, R150). -/
def frameBlocks (s : List Byte) : List (List Byte) :=
  let k := blockCount s.length
  (List.range k).map fun j => block (decide (j + 1 = k)) (chunk s j)

/-- frame(s) (R142). -/
def frame (s : List Byte) : List Byte := zlibHeader ++ (frameBlocks s).flatten ++ be32 (adler32 s)

/-- Undo stored blocks up to and with the final one: the raw bytes and what follows. At most `fuel` blocks (R159). -/
def unblock : Nat → List Byte → Option (List Byte × List Byte)
  | 0, _ => none
  | fuel + 1, f :: l0 :: l1 :: n0 :: n1 :: rest =>
    let len : Half := l1 ++ l0
    if n1 ++ n0 ≠ nlen len ∨ rest.length < len.toNat then none
    else if f = 0x01 then some (rest.take len.toNat, rest.drop len.toNat)
    else if f = 0x00 then
      (unblock fuel (rest.drop len.toNat)).map fun r => (rest.take len.toNat ++ r.1, r.2)
    else none
  | _ + 1, _ => none

/-- Undo a frame: check the header, undo the blocks, check the Adler-32 trailer (R159). -/
def unframe (x : List Byte) : Option (List Byte) :=
  if x.take 2 ≠ zlibHeader then none
  else match unblock x.length (x.drop 2) with
    | some (s, trailer) => if trailer = be32 (adler32 s) then some s else none
    | none => none

end Sys2Proof.Machine
end

