-- ==== Sys2Proof/Machine/Run.lean ====
section
/-! DEFINITION. Sequences of commands, in which the result laws are said (40_crc32.md R109, 41_adler32.md R129, 42_framer.md
R158), and what each unit is fed by them (10_state.md R35). -/

namespace Sys2Proof.Machine

/-- Carry out commands one after another, in order (20_memory.md R63). -/
def execAll : List Instr → State → Result
  | [], s => .next s
  | i :: is, s =>
    match exec i s with
    | .next t => execAll is t
    | .fault r => .fault r
    | .refused r => .refused r

/-- Command words written to CMD one after another, in order (20_memory.md R63). -/
def commandSteps : List Word → State → Result
  | [], s => .next s
  | v :: vs, s =>
    match commandStep v s with
    | .next t => commandSteps vs t
    | .fault r => .fault r
    | .refused r => .refused r

/-- The byte a command feeds to the CRC unit. -/
def crcData : Instr → Option Byte
  | .crcByte d => some d
  | .crcInit => none
  | .adlInit => none
  | .adlByte _ => none
  | .frmStart => none
  | .frmByte _ => none
  | .frmEnd => none

/-- The byte a command feeds to the Adler unit. -/
def adlData : Instr → Option Byte
  | .adlByte d => some d
  | .crcInit => none
  | .crcByte _ => none
  | .adlInit => none
  | .frmStart => none
  | .frmByte _ => none
  | .frmEnd => none

/-- The byte a command feeds to the framer. -/
def frmData : Instr → Option Byte
  | .frmByte d => some d
  | .crcInit => none
  | .crcByte _ => none
  | .adlInit => none
  | .adlByte _ => none
  | .frmStart => none
  | .frmEnd => none

/-- The units (00_scope.md R1). -/
inductive BlockUnit where
  | crc
  | adl
  | frm
deriving DecidableEq, Repr

/-- The unit of a command (30_encoding.md R82). -/
def unitOf : Instr → BlockUnit
  | .crcInit | .crcByte _ => .crc
  | .adlInit | .adlByte _ => .adl
  | .frmStart | .frmByte _ | .frmEnd => .frm

/-- The commands that frame s (70_reset_and_hazards.md R194). -/
def frameCommands (s : List Byte) : List Instr := [.frmStart] ++ s.map .frmByte ++ [.frmEnd]

end Sys2Proof.Machine
end

