-- ==== Sys2Proof/Safety.lean ====
section
/-! DEFINITION. What a safe run is, what can be observed, and the invariants of 10_state.md R36: the terms the claims use. -/

namespace Sys2Proof.Machine

/-- The error lock (60_exceptions.md R175): the spec's faulted state, never a normal end of a run (U8). Log 9. -/
abbrev State.Locked (s : State) : Prop := s.err = true

/-- A normal end of a run: no error, as 60_exceptions.md R175 says. DESIGN CHOICE for the rest, which the spec does not say:
nothing left to issue, no access waiting and no output waiting to enter OUT_FIFO, while bytes may be left in OUT_FIFO
(log 18). -/
abbrev State.NormalEnd (s : State) : Prop :=
  s.err = false ∧ s.emitQ = [] ∧ s.env.bus = none ∧ s.env.hostQ = []

/-- What a claim can observe (00_scope.md R13): the words read, the bytes the sink has taken, the error lock. -/
def State.observed (s : State) : List Word × List Byte × Bool :=
  (s.env.reads, s.env.takenEarlier ++ s.env.taken, s.err)

/-! What a step leaves as it was, unit by unit. -/

/-- The CRC unit is unchanged. -/
@[simp] abbrev State.SameCrc (s t : State) : Prop := t.crcState = s.crcState ∧ t.ghost.crcSeen = s.ghost.crcSeen

/-- The Adler unit is unchanged. -/
@[simp] abbrev State.SameAdler (s t : State) : Prop :=
  t.adlA = s.adlA ∧ t.adlB = s.adlB ∧ t.ghost.adlSeen = s.ghost.adlSeen

/-- Every byte of FRM_BUF reads as before. -/
@[simp] abbrev State.SameBuf (s t : State) : Prop := ∀ i, Memory.read t.frmBuf i = Memory.read s.frmBuf i

/-- The framer is unchanged, every byte of FRM_BUF with it. -/
@[simp] abbrev State.SameFramer (s t : State) : Prop :=
  t.frmOpen = s.frmOpen ∧ t.frmCount = s.frmCount ∧ t.frmA = s.frmA ∧ t.frmB = s.frmB
    ∧ t.ghost.frmSeen = s.ghost.frmSeen ∧ s.SameBuf t

/-- ERR and ERR_CODE are unchanged. -/
@[simp] abbrev State.SameErr (s t : State) : Prop := t.err = s.err ∧ t.errCode = s.errCode

/-- Nothing is emitted and the output has not moved. -/
@[simp] abbrev State.SameOut (s t : State) : Prop :=
  t.emitQ = s.emitQ ∧ t.outFifo = s.outFifo ∧ t.ghost.outLog = s.ghost.outLog

/-- Exactly the bytes bs are emitted (20_memory.md R53). -/
@[simp] abbrev State.Emits (s t : State) (bs : List Byte) : Prop :=
  t.emitQ = s.emitQ ++ bs ∧ t.outFifo = s.outFifo ∧ t.ghost.outLog = s.ghost.outLog ++ bs

/-- The command has failed with a code and has no other effect (60_exceptions.md R174). -/
abbrev State.failedWith (s : State) (code : Nibble) : State := { s with err := true, errCode := code }

/-- A word that fails with a code in every unlocked state (60_exceptions.md R171, R174). -/
abbrev Rejects (v : Word) (code : Nibble) : Prop :=
  ∀ s : State, s.err = false → commandStep v s = .next (s.failedWith code)

/-- A command is ignored while locked (60_exceptions.md R175). -/
abbrev IgnoredWhileLocked (i : Instr) : Prop := ∀ s : State, s.err = true → exec i s = .next s

/-- The next step is the host's, a is the access it makes, and s1 is the state in which the access has left the host or the bus. -/
def State.HostTurn (s : State) (a : BusAccess) (s1 : State) : Prop :=
  (∃ rest, s.env.moves = .host :: rest ∧ nextAccess (s.setEnv { s.env with moves := rest }) = some (a, s1))
  ∨ (s.env.moves = [] ∧ s.emitQ = [] ∧ nextAccess s = some (a, s1))

/-- The next step is not the platform's reset. -/
@[simp] abbrev State.NoReset (s : State) : Prop := s.env.moves.head? ≠ some .reset

/-- Items 3, 4 and 5 of R36 for an open frame whose bytes so far are `seen`. -/
structure State.FrameInv (s : State) (seen : List Byte) : Prop where
  count_le   : s.frmCount.toNat ≤ window
  sum_a      : s.frmA.toNat < adlMod
  sum_b      : s.frmB.toNat < adlMod
  count_zero : s.frmCount.toNat = 0 ↔ seen.length = 0
  count_eq   : 0 < seen.length → s.frmCount.toNat = (seen.length - 1) % window + 1
  adler_eq   : joinHalves s.frmB s.frmA = adler32 seen
  buf_eq     : (List.range s.frmCount.toNat).map (Memory.read s.frmBuf)
                 = (seen.drop (seen.length - s.frmCount.toNat)).map some

/-- The invariants of R36 (its items by number), with the canonical form of FRM_BUF, the bound of OUT_FIFO (10_state.md
R21) and FRM_SEEN undefined while no frame is open (R35). -/
structure State.Inv (s : State) : Prop where
  /-- item 1 -/
  adl_a       : s.adlA.toNat < adlMod
  /-- item 1 -/
  adl_b       : s.adlB.toNat < adlMod
  /-- item 2 -/
  closed      : s.frmOpen = false → s.frmCount = 0 ∧ s.ghost.frmSeen = none
  /-- items 3, 4, 5 -/
  opened      : s.frmOpen = true → ∃ seen, s.ghost.frmSeen = some seen ∧ s.FrameInv seen
  /-- item 6 -/
  crc_eq      : s.crcState ^^^ crcOnes = crc32 s.ghost.crcSeen
  /-- item 6 -/
  adler_eq    : joinHalves s.adlB s.adlA = adler32 s.ghost.adlSeen
  /-- item 7 -/
  err_iff     : s.err = false ↔ s.errCode = 0
  /-- item 7 -/
  err_code    : s.errCode.toNat ≤ 4
  /-- item 8 -/
  out_log     : s.ghost.outLog = s.env.taken ++ s.outFifo ++ s.emitQ
  fifo_length : s.outFifo.length ≤ Config.outDepth
  buf_wf      : Memory.wf s.frmBuf = true

/-- Two states that differ at most in what no rule reads before it is written (U1, U2) and in the ghost state (R35): FRM_A and
FRM_B while no frame is open, FRM_BUF outside the bytes collected in an open frame, and every ghost variable. -/
structure State.AgreeOnReadable (s t : State) : Prop where
  crc_state : s.crcState = t.crcState
  adl_a     : s.adlA = t.adlA
  adl_b     : s.adlB = t.adlB
  frm_open  : s.frmOpen = t.frmOpen
  frm_count : s.frmCount = t.frmCount
  err       : s.err = t.err
  err_code  : s.errCode = t.errCode
  emit_q    : s.emitQ = t.emitQ
  out_fifo  : s.outFifo = t.outFifo
  env       : s.env = t.env
  sums      : s.frmOpen = true → s.frmA = t.frmA ∧ s.frmB = t.frmB
  buf       : s.frmOpen = true → ∀ i < s.frmCount.toNat, bufRead s i = bufRead t i

/-- Two outcomes of one kind, with the same reason or with next states in the relation R. -/
inductive Result.Match (R : State → State → Prop) : Result → Result → Prop where
  | next {s t : State} (h : R s t) : Result.Match R (.next s) (.next t)
  | fault (r : Fault) : Result.Match R (.fault r) (.fault r)
  | refused (r : Refusal) : Result.Match R (.refused r) (.refused r)

end Sys2Proof.Machine
end

