-- ==== Sys2Proof/Certificates/Slice0/Obligations.lean ====
section
/-! DEFINITION. The statements for the provers. Each docstring names the rules of spec/ it formalises. -/

open Sys2Proof Sys2Proof.Machine

/-! ## Encoding -/

/-- 30_encoding.md R82, R84 to R87: words written out from the table, and words that fail. A sanity statement. -/
def Obligations.SpecWordsDecodeAsTabled : Prop :=
  decode 0x00000100 = .command .crcInit ∧ decode 0x00000231 = .command (.crcByte 0x31)
  ∧ decode 0x00001100 = .command .adlInit ∧ decode 0x000012ff = .command (.adlByte 0xff)
  ∧ decode 0x00002100 = .command .frmStart ∧ decode 0x00002241 = .command (.frmByte 0x41)
  ∧ decode 0x00002300 = .command .frmEnd
  ∧ decode 0x00000000 = .rejected .illegalOpcode ∧ decode 0x00020000 = .rejected .reservedNonzero
  ∧ decode 0x00000105 = .rejected .reservedNonzero

/-- 30_encoding.md R80, R82: a word decodes to a command exactly if it is the command's word, so decoding is the inverse of
encoding on all seven commands and no other word decodes. -/
def Obligations.DecodeExactlyInvertsEncode : Prop :=
  ∀ (v : Word) (i : Instr), decode v = .command i ↔ v = encode i

/-- 30_encoding.md R84, R85, R86: the three ways a word is no command, and that there is no other way. -/
def Obligations.MalformedWordsAreRejected : Prop :=
  (∀ rsv op d, rsv ≠ 0 → decode (cmdWord rsv op d) = .rejected .reservedNonzero)
  ∧ (∀ op d, op ∉ ([0x01, 0x02, 0x11, 0x12, 0x21, 0x22, 0x23] : List Byte) →
      decode (cmdWord 0 op d) = .rejected .illegalOpcode)
  ∧ (∀ op d, op ∈ ([0x01, 0x11, 0x21, 0x23] : List Byte) → d ≠ 0 →
      decode (cmdWord 0 op d) = .rejected .reservedNonzero)
  ∧ (∀ v, (fieldsOf v).wellFormed = true ↔ ∃ i, decode v = .command i)

/-- 30_encoding.md R86: 249 of the 256 values of OP are unassigned, 0x00 among them. -/
def Obligations.UnassignedOpcodesAre249 : Prop :=
  ((List.range 256).filter fun n =>
      decide (decode (cmdWord 0 (BitVec.ofNat 8 n) 0) = .rejected .illegalOpcode)).length = 249
  ∧ decode (cmdWord 0 0x00 0) = .rejected .illegalOpcode

/-- 30_encoding.md R88 with 20_memory.md R63: writing the words of a list of commands to CMD runs the commands, from every state. -/
def Obligations.WordsRunAsTheirCommands : Prop :=
  ∀ (is : List Instr) (s : State), commandSteps (is.map encode) s = execAll is s

/-! ## Checksum functions -/

/-- 40_crc32.md R108: the source's check values. -/
def Obligations.CrcCheckValues : Prop :=
  crc32 [] = 0x00000000
  ∧ crc32 [0x31, 0x32, 0x33, 0x34, 0x35, 0x36, 0x37, 0x38, 0x39] = 0xCBF43926

/-- 41_adler32.md R128, and R120's one-byte example, which tells the two readings of the update apart. -/
def Obligations.AdlerCheckValues : Prop :=
  adler32 [] = 0x00000001 ∧ adler32 [0x61] = 0x00620062

/-- 40_crc32.md R104: a bit step shifts a zero in, and bit 31 of its result is the bit shifted out at bit 0. -/
def Obligations.CrcStepFeedsBackTheBitShiftedOut : Prop :=
  ∀ c : Word, (crcStep1 c).getLsbD 31 = c.getLsbD 0
    ∧ ∀ i < 31, (crcStep1 c).getLsbD i = (c.getLsbD (i + 1) ^^ (c.getLsbD 0 && (0xEDB88320 : Word).getLsbD i))

/-- 41_adler32.md R124, R125: on reduced sums, one conditional subtraction computes each mod exactly, no exact sum reaches 2 x 65521
or 2^17, and the results are reduced. -/
def Obligations.AdlerUpdateIsOneConditionalSubtraction : Prop :=
  ∀ (a b : Half) (d : Byte), a.toNat < 65521 → b.toNat < 65521 →
    let a' := (adlUpdate (a, b) d).1.toNat
    let b' := (adlUpdate (a, b) d).2.toNat
    a' = (if 65521 ≤ a.toNat + d.toNat then a.toNat + d.toNat - 65521 else a.toNat + d.toNat)
    ∧ b' = (if 65521 ≤ b.toNat + a' then b.toNat + a' - 65521 else b.toNat + a')
    ∧ a.toNat + d.toNat ≤ 65775 ∧ b.toNat + a' ≤ 131040 ∧ a' < 65521 ∧ b' < 65521

/-! ## The seven commands: result, completion and frame -/

/-- 40_crc32.md R102, CRC.INIT: from every unlocked state it completes with CRC_STATE = 0xFFFFFFFF and CRC_RESULT = 0, changes nothing
else, and two in a row act as one. Its word, its malformed words and the lock. -/
def Obligations.CrcInitStartsANewCrc : Prop :=
  encode .crcInit = 0x00000100
  ∧ (∀ s : State, s.err = false → ∃ t, exec .crcInit s = .next t ∧ t.crcState = 0xFFFFFFFF
      ∧ readReg .crcResult t = 0x00000000 ∧ t.ghost.crcSeen = [] ∧ readReg .status t = readReg .status s
      ∧ exec .crcInit t = .next t
      ∧ s.SameAdler t ∧ s.SameFramer t ∧ s.SameErr t ∧ s.SameOut t ∧ t.env = s.env)
  ∧ crc32 [] = 0x00000000
  ∧ (∀ rsv d, rsv ≠ 0 ∨ d ≠ 0 → Rejects (cmdWord rsv 0x01 d) 0x2)
  ∧ IgnoredWhileLocked .crcInit

/-- 40_crc32.md R103, CRC.BYTE d: from every unlocked state it completes with CRC_STATE <- crc_update8(CRC_STATE, d) and changes nothing
else; a zero byte is no no-op, and R103's example. -/
def Obligations.CrcByteFeedsOneByte : Prop :=
  (∀ d, encode (.crcByte d) = cmdWord 0 0x02 d)
  ∧ (∀ (s : State) (d : Byte), s.err = false → ∃ t, exec (.crcByte d) s = .next t
      ∧ t.crcState = crcUpdate8 s.crcState d ∧ t.ghost.crcSeen = s.ghost.crcSeen ++ [d]
      ∧ readReg .status t = readReg .status s
      ∧ s.SameAdler t ∧ s.SameFramer t ∧ s.SameErr t ∧ s.SameOut t ∧ t.env = s.env)
  ∧ State.reset.crcState = 0xFFFFFFFF ∧ crcUpdate8 0xFFFFFFFF 0x31 = 0x7C231048
  ∧ (0x7C231048 : Word) ^^^ 0xFFFFFFFF = 0x83DCEFB7 ∧ crc32 [0x31] = 0x83DCEFB7
  ∧ crcUpdate8 0xFFFFFFFF 0x00 ≠ 0xFFFFFFFF
  ∧ (∀ rsv d, rsv ≠ 0 → Rejects (cmdWord rsv 0x02 d) 0x2)
  ∧ (∀ d, IgnoredWhileLocked (.crcByte d))

/-- 41_adler32.md R122, ADL.INIT: from every unlocked state it completes with (ADL_A, ADL_B) = (1, 0) and ADLER_RESULT = 1 and changes
nothing else, the framer's sums and an open frame among it. -/
def Obligations.AdlInitStartsANewAdler : Prop :=
  encode .adlInit = 0x00001100
  ∧ (∀ s : State, s.err = false → ∃ t, exec .adlInit s = .next t ∧ t.adlA = 1 ∧ t.adlB = 0
      ∧ readReg .adlerResult t = 0x00000001 ∧ t.ghost.adlSeen = [] ∧ readReg .status t = readReg .status s
      ∧ s.SameCrc t ∧ s.SameFramer t ∧ s.SameErr t ∧ s.SameOut t ∧ t.env = s.env)
  ∧ adler32 [] = 0x00000001
  ∧ (∀ rsv d, rsv ≠ 0 ∨ d ≠ 0 → Rejects (cmdWord rsv 0x11 d) 0x2)
  ∧ IgnoredWhileLocked .adlInit

/-- 41_adler32.md R123 with R120, ADL.BYTE d: from every unlocked state it completes with A' = (A + d) mod 65521, B' = (B + A') mod 65521 and
changes nothing else; R123's corner cases and example. -/
def Obligations.AdlByteFeedsOneByte : Prop :=
  (∀ d, encode (.adlByte d) = cmdWord 0 0x12 d)
  ∧ (∀ (s : State) (d : Byte), s.err = false → ∃ t, exec (.adlByte d) s = .next t
      ∧ t.adlA.toNat = (s.adlA.toNat + d.toNat) % 65521 ∧ t.adlB.toNat = (s.adlB.toNat + t.adlA.toNat) % 65521
      ∧ t.ghost.adlSeen = s.ghost.adlSeen ++ [d] ∧ readReg .status t = readReg .status s
      ∧ (d = 0 → s.adlA.toNat < 65521 → t.adlA = s.adlA)
      ∧ (s.adlA.toNat + d.toNat = 65521 → t.adlA = 0)
      ∧ s.SameCrc t ∧ s.SameFramer t ∧ s.SameErr t ∧ s.SameOut t ∧ t.env = s.env)
  ∧ adlUpdate (65520, 65520) 0x01 = (0, 65520) ∧ adlUpdate (65520, 65520) 0xFF = (254, 253)
  ∧ State.reset.adlA = 1 ∧ State.reset.adlB = 0
  ∧ adlUpdate (1, 0) 0x61 = (0x0062, 0x0062) ∧ adlWord (0x0062, 0x0062) = 0x00620062
  ∧ (∀ rsv d, rsv ≠ 0 → Rejects (cmdWord rsv 0x12 d) 0x2)
  ∧ (∀ d, IgnoredWhileLocked (.adlByte d))

/-- 42_framer.md R145, FRM.START: with no frame open it completes, emits 78 01 and opens a frame with count 0 and sums (1, 0); with a
frame open it fails with code 4 and leaves the frame untouched. It stores nothing to FRM_BUF. -/
def Obligations.FrmStartOpensAFrame : Prop :=
  encode .frmStart = 0x00002100
  ∧ (∀ s : State, s.err = false → s.frmOpen = false → ∃ t, exec .frmStart s = .next t
      ∧ s.Emits t [0x78, 0x01] ∧ t.frmOpen = true ∧ t.frmCount = 0 ∧ t.frmA = 1 ∧ t.frmB = 0
      ∧ t.ghost.frmSeen = some [] ∧ s.SameBuf t
      ∧ (readReg .status t).getLsbD 0 = true ∧ (readReg .status t).extractLsb' 16 16 = 0#16
      ∧ s.SameCrc t ∧ s.SameAdler t ∧ s.SameErr t ∧ t.env = s.env)
  ∧ (∃ t, exec .frmStart State.reset = .next t ∧ State.reset.Emits t [0x78, 0x01] ∧ readReg .status t = 0x00000001)
  ∧ (∀ s : State, s.err = false → s.frmOpen = true → exec .frmStart s = .next (s.failedWith 0x4))
  ∧ (∀ rsv d, rsv ≠ 0 ∨ d ≠ 0 → Rejects (cmdWord rsv 0x21 d) 0x2)
  ∧ IgnoredWhileLocked .frmStart

/-- 42_framer.md R146, FRM.BYTE d: with a frame open (and FRM_COUNT in its range, 10_state.md R25) it completes; a full buffer is first
emitted as a non-final block of 32773 bytes; d is stored at the index the meaning stores it at and every other byte of
FRM_BUF reads as before; count and sums follow. With no frame open it fails with code 3. -/
def Obligations.FrmByteCollectsOneByte : Prop :=
  (∀ d, encode (.frmByte d) = cmdWord 0 0x22 d)
  ∧ (∀ (s : State) (d : Byte), s.err = false → s.frmOpen = true → s.frmCount.toNat ≤ 32768 →
      ∃ t, exec (.frmByte d) s = .next t
      ∧ (s.frmCount.toNat < 32768 → s.Emits t [] ∧ t.frmCount.toNat = s.frmCount.toNat + 1
          ∧ (flushFull s).frmCount = s.frmCount)
      ∧ (s.frmCount.toNat = 32768 → s.Emits t (block false (bufTake s 32768)) ∧ t.frmCount.toNat = 1
          ∧ (flushFull s).frmCount = 0 ∧ t.emitQ.length = s.emitQ.length + 32773)
      ∧ Memory.read t.frmBuf (flushFull s).frmCount.toNat = some d
      ∧ (∀ j, j ≠ (flushFull s).frmCount.toNat → Memory.read t.frmBuf j = Memory.read s.frmBuf j)
      ∧ t.frmA.toNat = (s.frmA.toNat + d.toNat) % 65521 ∧ t.frmB.toNat = (s.frmB.toNat + t.frmA.toNat) % 65521
      ∧ t.ghost.frmSeen = s.ghost.frmSeen.map (· ++ [d]) ∧ t.frmOpen = true
      ∧ (readReg .status t).extractLsb' 16 16 = t.frmCount
      ∧ s.SameCrc t ∧ s.SameAdler t ∧ s.SameErr t ∧ t.env = s.env)
  ∧ (∀ (s : State) (d : Byte), s.err = false → s.frmOpen = false → exec (.frmByte d) s = .next (s.failedWith 0x3))
  ∧ (∀ rsv d, rsv ≠ 0 → Rejects (cmdWord rsv 0x22 d) 0x2)
  ∧ (∀ d, IgnoredWhileLocked (.frmByte d))

/-- 42_framer.md R147 with R141, R144, FRM.END: with a frame open (and FRM_COUNT in its range, 10_state.md R25) it completes, emits the
final block of the bytes collected and be32 of the sums, and closes the frame; it stores nothing to FRM_BUF and keeps the
sums. With no frame open it fails with code 3. -/
def Obligations.FrmEndClosesTheFrame : Prop :=
  encode .frmEnd = 0x00002300
  ∧ (∀ s : State, s.err = false → s.frmOpen = true → s.frmCount.toNat ≤ 32768 → ∃ t, exec .frmEnd s = .next t
      ∧ s.Emits t (block true (bufTake s s.frmCount.toNat) ++ be32 (s.frmB ++ s.frmA))
      ∧ t.emitQ.length = s.emitQ.length + (5 + s.frmCount.toNat + 4)
      ∧ t.frmOpen = false ∧ t.frmCount = 0 ∧ t.frmA = s.frmA ∧ t.frmB = s.frmB ∧ s.SameBuf t
      ∧ t.ghost.frmSeen = none
      ∧ (readReg .status t).getLsbD 0 = false ∧ (readReg .status t).extractLsb' 16 16 = 0#16
      ∧ s.SameCrc t ∧ s.SameAdler t ∧ s.SameErr t ∧ t.env = s.env)
  ∧ (∀ s : State, s.err = false → s.frmOpen = false → exec .frmEnd s = .next (s.failedWith 0x3))
  ∧ (∀ rsv d, rsv ≠ 0 ∨ d ≠ 0 → Rejects (cmdWord rsv 0x23 d) 0x2)
  ∧ IgnoredWhileLocked .frmEnd

/-- 20_memory.md R52 read with 00_scope.md; the model's own stop (log 5): with FRM_COUNT beyond 32768, which no run reaches, FRM.BYTE and
FRM.END on an open frame stop instead of reaching an index that does not exist. -/
def Obligations.BufferIndexBeyondCapacityStops : Prop :=
  ∀ (s : State) (d : Byte), s.err = false → s.frmOpen = true → 32768 < s.frmCount.toNat →
    exec (.frmByte d) s = .fault .frmBufOutOfRange ∧ exec .frmEnd s = .fault .frmBufOutOfRange

/-! ## Errors and the lock -/

/-- 60_exceptions.md R172 with R171, R173, R174: the first failing check decides the code of an unlocked command word, the failing command
has no other effect, and a word that passes every check completes without an error. -/
def Obligations.FirstFailingCheckDecidesTheCode : Prop :=
  (∀ (v : Word) (s : State), s.err = false → s.frmCount.toNat ≤ 32768 →
    let f := fieldsOf v
    let stateOk := (f.op ∈ ([0x22, 0x23] : List Byte) → s.frmOpen = true) ∧ (f.op = 0x21 → s.frmOpen = false)
    (f.rsvZero = false → commandStep v s = .next (s.failedWith 0x2))
    ∧ (f.rsvZero = true → f.opAssigned = false → commandStep v s = .next (s.failedWith 0x1))
    ∧ (f.rsvZero = true → f.opAssigned = true → f.dataLegal = false → commandStep v s = .next (s.failedWith 0x2))
    ∧ (f.wellFormed = true → f.op ∈ ([0x22, 0x23] : List Byte) → s.frmOpen = false →
        commandStep v s = .next (s.failedWith 0x3))
    ∧ (f.wellFormed = true → f.op = 0x21 → s.frmOpen = true → commandStep v s = .next (s.failedWith 0x4))
    ∧ (f.wellFormed = true → stateOk → ∃ t, commandStep v s = .next t ∧ s.SameErr t))
  ∧ (∀ s : State, s.err = false → s.frmOpen = false → commandStep 0x00012300 s = .next (s.failedWith 0x2)
      ∧ commandStep 0x00000000 s = .next (s.failedWith 0x1) ∧ commandStep 0x00002305 s = .next (s.failedWith 0x2))

/-- 60_exceptions.md R174: errors are precise. A step that raises ERR changes, of the block, ERR and ERR_CODE only, with a code of R171;
it emits nothing and keeps what waits in EMIT_Q and OUT_FIFO. -/
def Obligations.ErrorsArePrecise : Prop :=
  ∀ s t : State, step s = .next t → s.err = false → t.err = true →
    s.SameCrc t ∧ s.SameAdler t ∧ s.SameFramer t ∧ s.SameOut t
    ∧ t.errCode ∈ ([0x1, 0x2, 0x3, 0x4] : List Nibble)
    ∧ t.env.reads = s.env.reads ∧ t.env.taken = s.env.taken

/-- 60_exceptions.md R175: while ERR = 1 every CMD word and every command is ignored, a read still returns the register, the state is
never a normal end of a run, and ERR and ERR_CODE stay until reset. -/
def Obligations.LockIgnoresEveryCommand : Prop :=
  ∀ s : State, s.err = true →
    (∀ v, commandStep v s = .next s) ∧ (∀ i, exec i s = .next s)
    ∧ (∀ r, performAccess r .read s = .next { s with env := { s.env with reads := s.env.reads ++ [readReg r s] } })
    ∧ ¬ s.NormalEnd
    ∧ (∀ t, step s = .next t → s.NoReset → t.err = true ∧ t.errCode = s.errCode)

/-- 60_exceptions.md R177, with R175 and R176: only reset leaves the lock, and it clears ERR and ERR_CODE; until then the units, the
framer, ERR and ERR_CODE are frozen and nothing more is emitted. No step of a locked block faults but for a sink that
has stopped (log 4). -/
def Obligations.OnlyResetLeavesTheLock : Prop :=
  ∀ s : State, s.err = true →
    (∀ t, step s = .next t → s.NoReset →
      s.SameCrc t ∧ s.SameAdler t ∧ s.SameFramer t ∧ s.SameErr t ∧ t.ghost.outLog = s.ghost.outLog)
    ∧ (s.env.moves.head? = some .reset → step s = .next (resetEvent { s with env := { s.env with moves := s.env.moves.tail } }))
    ∧ (∀ s0, (resetEvent s0).err = false ∧ (resetEvent s0).errCode = 0)
    ∧ (∀ r, step s = .fault r → r = .hang)

/-! ## The host bus -/

/-- 20_memory.md R51 with R59 and 10_state.md R30: BASE is a multiple of 16, and an access reaches a register exactly if it is one word
wide and its byte address is BASE plus the register's offset 0x0, 0x4, 0x8 or 0xC. -/
def Obligations.AccessReachesExactlyFourWords : Prop :=
  16 ∣ Config.base
  ∧ [Reg.cmd, .status, .crcResult, .adlerResult].map regOffset = [0x0, 0x4, 0x8, 0xC]
  ∧ ∀ (address size : Nat) (op : BusOp) (r : Reg),
    accessTarget (accessAtAddress address size op) = .ok r ↔ size = 4 ∧ (address : Int) = Config.base + regOffset r

/-- 20_memory.md R59: the host's turn with any other access is refused. That it is refused while the bus is stalled too, and does
not wait first, is the model's choice (log 8). -/
def Obligations.AccessOutsideTheInterfaceIsRefused : Prop :=
  ∀ (s s1 : State) (a : BusAccess), s.HostTurn a s1 →
    a.size ≠ 4 ∨ a.offset ∉ ([0x0, 0x4, 0x8, 0xC] : List Int) → ∃ r, step s = .refused r

/-- 20_memory.md R60: while EMIT_Q is not empty an access is not accepted. It stands on the bus, nothing of the block changes, and the
host's next turn makes the same access. -/
def Obligations.BusStallsWhileOutputWaits : Prop :=
  ∀ (s s1 : State) (a : BusAccess) (r : Reg), s.HostTurn a s1 → accessTarget a = .ok r → s.emitQ ≠ [] →
    ∃ t, step s = .next t ∧ t.env.bus = some a ∧ nextAccess t = some (a, t.setEnv { t.env with bus := none })
      ∧ t.env.reads = s.env.reads
      ∧ s.SameCrc t ∧ s.SameAdler t ∧ s.SameFramer t ∧ s.SameErr t ∧ s.SameOut t

/-- 20_memory.md R58 with 10_state.md R31 to R34: a read waits until EMIT_Q is empty, then returns the register's word, and changes no
state of the block. -/
def Obligations.BusReadReturnsTheRegister : Prop :=
  ∀ (s s1 : State) (a : BusAccess) (r : Reg), s.HostTurn a s1 → accessTarget a = .ok r → a.op = .read →
    (∃ e, s1 = { s with env := e })
    ∧ (s.emitQ ≠ [] → step s = .next { s1 with env := { s1.env with bus := some a } })
    ∧ (s.emitQ = [] → step s = .next { s1 with env := { s1.env with reads := s.env.reads ++ [
        match r with
        | .cmd => 0x00000000
        | .status => s.frmCount ++ (0#8 ++ (s.errCode ++ (0#2 ++ (BitVec.ofBool s.err ++ BitVec.ofBool s.frmOpen))))
        | .crcResult => s.crcState ^^^ 0xFFFFFFFF
        | .adlerResult => s.adlB ++ s.adlA] } })

/-- 20_memory.md R57: a write waits until EMIT_Q is empty; then a write to CMD is a command step, and a write to a read-only register
changes nothing and raises no error. -/
def Obligations.BusWriteActsOnlyOnCmd : Prop :=
  ∀ (s s1 : State) (a : BusAccess) (v : Word), s.HostTurn a s1 → a.op = .write v →
    (∃ e, s1 = { s with env := e })
    ∧ (s.emitQ ≠ [] → ∀ r, accessTarget a = .ok r → step s = .next { s1 with env := { s1.env with bus := some a } })
    ∧ (s.emitQ = [] → accessTarget a = .ok .cmd → step s = commandStep v s1)
    ∧ (s.emitQ = [] → ∀ r, accessTarget a = .ok r → r ≠ .cmd → step s = .next s1)

/-- 10_state.md R32: every bit of STATUS. -/
def Obligations.StatusLayout : Prop :=
  ∀ s : State,
    (readReg .status s).getLsbD 0 = s.frmOpen ∧ (readReg .status s).getLsbD 1 = s.err
    ∧ (readReg .status s).extractLsb' 2 2 = 0#2 ∧ (readReg .status s).extractLsb' 4 4 = s.errCode
    ∧ (readReg .status s).extractLsb' 8 8 = 0#8 ∧ (readReg .status s).extractLsb' 16 16 = s.frmCount

/-- 30_encoding.md R87, 20_memory.md R57, R60: a step in which the host writes a command's word to CMD, with EMIT_Q empty and ERR = 0, is exec
of that command on the state in which the access has left the host or the bus. -/
def Obligations.StepRunsTheDecodedCommand : Prop :=
  ∀ (s s1 : State) (a : BusAccess) (v : Word) (i : Instr), s.HostTurn a s1 → accessTarget a = .ok .cmd →
    a.op = .write v → s.emitQ = [] → s.err = false → decode v = .command i →
    (∃ e, s1 = { s with env := e }) ∧ step s = exec i s1

/-- The model's own convention (log 10): where a command word is placed, and that the very next step runs it. -/
def Obligations.PlacedWordRunsNext : Prop :=
  ∀ (s : State) (w : Nat) (i : Instr), s.err = false → s.emitQ = [] → decodeTableWord 32 w = some i →
    step (s.withFetchWord 32 w)
      = exec i { s with env := { s.env with bus := none, hostQ := s.env.bus.toList ++ s.env.hostQ } }

/-- 20_memory.md R60, R61, R64: whatever a step adds to the words read is one register of the state it starts from, with EMIT_Q empty, and
such a step leaves the block as it was. -/
def Obligations.ReadsSeeOnlyWholeCommands : Prop :=
  ∀ s t : State, step s = .next t → t.env.reads ≠ s.env.reads →
    s.emitQ = [] ∧ (∃ r, t.env.reads = s.env.reads ++ [readReg r s])
    ∧ s.SameCrc t ∧ s.SameAdler t ∧ s.SameFramer t ∧ s.SameErr t ∧ s.SameOut t

/-- 20_memory.md R60, R63: while EMIT_Q is not empty, no step but reset changes a register of the block. -/
def Obligations.StallHoldsTheRegisters : Prop :=
  ∀ s t : State, step s = .next t → s.emitQ ≠ [] → s.NoReset →
    s.SameCrc t ∧ s.SameAdler t ∧ s.SameFramer t ∧ s.SameErr t ∧ t.ghost.outLog = s.ghost.outLog

/-! ## The OUT stream -/

/-- 20_memory.md R54: the transfer step, scheduled or taken by itself when nothing is scheduled, in every state in which it is enabled (a
locked one too, 60_exceptions.md R176). That it is taken first when nothing is scheduled is the model's choice (log 1). -/
def Obligations.TransferMovesOneByte : Prop :=
  ∀ (s : State) (b : Byte) (q : List Byte), s.emitQ = b :: q → s.outFifo.length < Config.outDepth →
    s.env.moves = [] ∨ s.env.moves.head? = some .transfer →
    step s = .next { s with
      emitQ := q, outFifo := s.outFifo ++ [b], env := { s.env with moves := s.env.moves.tail } }

/-- 20_memory.md R55, R56: out_valid, out_data, and the sink step, in every state (a locked one too, 60_exceptions.md R176). -/
def Obligations.SinkTakesTheFirstByte : Prop :=
  (∀ s : State, outValid s = true ↔ s.outFifo ≠ [])
  ∧ (∀ (s : State) (b : Byte) (q : List Byte), s.outFifo = b :: q → outData s = some b
      ∧ (s.env.moves.head? = some .sink → step s = .next { s with
          outFifo := q, env := { s.env with moves := s.env.moves.tail, taken := s.env.taken ++ [b] } }))
  ∧ (∀ s : State, s.outFifo = [] → s.env.moves.head? = some .sink →
      step s = .next { s with env := { s.env with moves := s.env.moves.tail } })

/-- 20_memory.md R53, R65: emitted bytes are never taken back, reordered, duplicated or dropped, but by reset. Whatever a step emits joins
the end of OUT_LOG and of the bytes taken, in OUT_FIFO and in EMIT_Q together. -/
def Obligations.OutputIsOnlyAppended : Prop :=
  ∀ s t : State, step s = .next t → s.NoReset →
    ∃ new, t.ghost.outLog = s.ghost.outLog ++ new
      ∧ t.env.taken ++ t.outFifo ++ t.emitQ = (s.env.taken ++ s.outFifo ++ s.emitQ) ++ new
      ∧ s.env.taken <+: t.env.taken

/-- 60_exceptions.md R186, 70_reset_and_hazards.md R195: a step is a hang exactly if nothing is scheduled, output waits, OUT_FIFO is full and the
sink takes no more bytes. That the step is then a fault is the model's choice (log 4). -/
def Obligations.HangExactlyIfTheSinkHasStopped : Prop :=
  ∀ s : State, step s = .fault .hang ↔
    s.env.moves = [] ∧ s.emitQ ≠ [] ∧ Config.outDepth ≤ s.outFifo.length ∧ s.env.outReady = false

/-- 20_memory.md R54, R60, 70_reset_and_hazards.md R195: with a sink that keeps taking bytes, output that waits drains in at most two steps a
byte, whatever OUT_DEPTH is, and the block and the host's accesses are as they were. It
rests on the order of moves the model chose for a schedule that is used up (log 1). -/
def Obligations.ReadySinkDrainsTheOutput : Prop :=
  ∀ s : State, s.env.moves = [] → s.env.outReady = true → s.outFifo.length ≤ Config.outDepth →
    ∃ k ≤ 2 * s.emitQ.length, ∃ t : State, Host.Core.run Sys2Proof.core k s = .next t ∧ t.emitQ = []
      ∧ t.ghost.outLog = s.ghost.outLog ∧ t.env.taken ++ t.outFifo = s.env.taken ++ s.outFifo ++ s.emitQ
      ∧ s.SameCrc t ∧ s.SameAdler t ∧ s.SameFramer t ∧ s.SameErr t
      ∧ t.env.bus = s.env.bus ∧ t.env.hostQ = s.env.hostQ

/-! ## Reset and the invariants -/

/-- 70_reset_and_hazards.md R190: reset, in every state, gives every element of the table its reset value, discards the output that waits,
abandons a waiting access, and gives the ghost state its values; then the registers read as R190 says. -/
def Obligations.ResetGivesTheResetValues : Prop :=
  ∀ s : State, s.env.moves.head? = some .reset → ∃ t, step s = .next t
    ∧ t.crcState = 0xFFFFFFFF ∧ t.adlA = 1 ∧ t.adlB = 0 ∧ t.frmOpen = false ∧ t.frmCount = 0
    ∧ t.err = false ∧ t.errCode = 0 ∧ t.emitQ = [] ∧ t.outFifo = []
    ∧ t.ghost.crcSeen = [] ∧ t.ghost.adlSeen = [] ∧ t.ghost.outLog = [] ∧ t.ghost.frmSeen = none
    ∧ t.env.bus = none ∧ t.env.reads = s.env.reads
    ∧ t.env.takenEarlier ++ t.env.taken = s.env.takenEarlier ++ s.env.taken
    ∧ readReg .status t = 0x00000000 ∧ readReg .crcResult t = 0x00000000 ∧ readReg .adlerResult t = 0x00000001

/-- 10_state.md R36: the invariants hold in the state after reset. -/
def Obligations.InvariantsHoldAtReset : Prop := State.reset.Inv

/-- 10_state.md R36: from every state that meets the invariants, every step that answers a next state keeps them, whoever moves. -/
def Obligations.EveryStepKeepsTheInvariants : Prop :=
  ∀ s t : State, s.Inv → step s = .next t → t.Inv

/-- 00_scope.md R13, 10_state.md R35, 93_implementation_defined.md U1, U2: what no rule reads before it is written, and the ghost state, can be
neither observed nor felt. Two states that agree on the rest make the same step and agree again. -/
def Obligations.UnreadableStateCannotBeFelt : Prop :=
  ∀ s t : State, s.AgreeOnReadable t →
    Result.Match State.AgreeOnReadable (step s) (step t) ∧ s.observed = t.observed

/-! ## The laws of the units -/

/-- 40_crc32.md R109 with 70_reset_and_hazards.md R190, R193: after CRC.INIT and the bytes of s, CRC_RESULT is crc32(s); the same
straight after any reset without CRC.INIT, whatever state the reset came in (State.reset is one of these states:
resetEvent_reset); commands to the other units may be mixed in as long as none fails; a failure locks the unit. -/
def Obligations.CrcResultLaw : Prop :=
  (∀ (s : State) (bs : List Byte), s.err = false →
    ∃ t, execAll (.crcInit :: bs.map .crcByte) s = .next t ∧ t.err = false ∧ readReg .crcResult t = crc32 bs)
  ∧ (∀ (s t : State) (is : List Instr), s.err = false → .crcInit ∉ is →
      execAll (.crcInit :: is) s = .next t → t.err = false → readReg .crcResult t = crc32 (is.filterMap crcData))
  ∧ (∀ (s : State) (bs : List Byte),
    ∃ t, execAll (bs.map .crcByte) (resetEvent s) = .next t ∧ t.err = false ∧ readReg .crcResult t = crc32 bs)
  ∧ (∀ (s t : State) (is : List Instr), .crcInit ∉ is →
      execAll is (resetEvent s) = .next t → t.err = false → readReg .crcResult t = crc32 (is.filterMap crcData))
  ∧ (∀ (s : State) (d : Byte), s.err = true → exec (.crcByte d) s = .next s)

/-- 41_adler32.md R129 with 70_reset_and_hazards.md R190, R193: the same law for the Adler unit. -/
def Obligations.AdlerResultLaw : Prop :=
  (∀ (s : State) (bs : List Byte), s.err = false →
    ∃ t, execAll (.adlInit :: bs.map .adlByte) s = .next t ∧ t.err = false ∧ readReg .adlerResult t = adler32 bs)
  ∧ (∀ (s t : State) (is : List Instr), s.err = false → .adlInit ∉ is →
      execAll (.adlInit :: is) s = .next t → t.err = false → readReg .adlerResult t = adler32 (is.filterMap adlData))
  ∧ (∀ (s : State) (bs : List Byte),
    ∃ t, execAll (bs.map .adlByte) (resetEvent s) = .next t ∧ t.err = false ∧ readReg .adlerResult t = adler32 bs)
  ∧ (∀ (s t : State) (is : List Instr), .adlInit ∉ is →
      execAll is (resetEvent s) = .next t → t.err = false → readReg .adlerResult t = adler32 (is.filterMap adlData))

/-- 42_framer.md R158: from every state with ERR = 0 and no frame open, FRM.START, the bytes of s, FRM.END append exactly frame(s), whatever
CRC and Adler commands are mixed in. They complete, and the frame is closed. -/
def Obligations.FrameResultLaw : Prop :=
  ∀ (s : State) (is : List Instr), s.err = false → s.frmOpen = false → .frmStart ∉ is → .frmEnd ∉ is →
    ∃ t, execAll (.frmStart :: (is ++ [.frmEnd])) s = .next t ∧ t.err = false ∧ t.frmOpen = false
      ∧ s.Emits t (frame (is.filterMap frmData))

/-- 42_framer.md R157: two frames given one after another appear one after another on OUT, each whole, with nothing between them. -/
def Obligations.FramesFollowBackToBack : Prop :=
  ∀ (s : State) (x y : List Byte), s.err = false → s.frmOpen = false →
    ∃ t, execAll (frameCommands x ++ frameCommands y) s = .next t ∧ t.err = false ∧ t.frmOpen = false
      ∧ s.Emits t (frame x ++ frame y)

/-- 40_crc32.md R107, 41_adler32.md R127, 42_framer.md R156, 70_reset_and_hazards.md R196: two commands of different units that both succeed in one order
succeed in the other, with the same result. -/
def Obligations.CommandsOfDifferentUnitsCommute : Prop :=
  ∀ (s t u : State) (i j : Instr), unitOf i ≠ unitOf j → exec i s = .next t → exec j t = .next u → u.err = false →
    ∃ t', exec j s = .next t' ∧ exec i t' = .next u

/-- 42_framer.md R140, R142: the chunks in order are exactly s; every chunk but the last holds 32768 bytes; the last holds 1 to 32768 of them,
and none only for the empty input; every LEN fits. -/
def Obligations.ChunksPartitionTheInput : Prop :=
  ∀ s : List Byte,
    let k := blockCount s.length
    1 ≤ k ∧ ((List.range k).map (chunk s)).flatten = s
    ∧ (∀ j, j + 1 < k → (chunk s j).length = 32768)
    ∧ (chunk s (k - 1)).length ≤ 32768 ∧ (s ≠ [] → 1 ≤ (chunk s (k - 1)).length)
    ∧ (s = [] → k = 1 ∧ chunk s 0 = [])

/-- 42_framer.md R143: the length of a frame. -/
def Obligations.FrameLength : Prop :=
  (∀ s : List Byte, (frame s).length = 2 + 5 * max 1 ((s.length + 32767) / 32768) + s.length + 4)
  ∧ (∀ s : List Byte, s.length = 0 → (frame s).length = 11)
  ∧ (∀ s : List Byte, s.length = 32768 → (frame s).length = 32779)
  ∧ (∀ s : List Byte, s.length = 32769 → (frame s).length = 32785)

/-- 42_framer.md R151: the frame of the empty input, and the commands that emit it. -/
def Obligations.EmptyFrame : Prop :=
  frame [] = [0x78, 0x01, 0x01, 0x00, 0x00, 0xFF, 0xFF, 0x00, 0x00, 0x00, 0x01]
  ∧ (∀ s : State, s.err = false → s.frmOpen = false → ∃ t, execAll [.frmStart, .frmEnd] s = .next t
      ∧ s.Emits t [0x78, 0x01, 0x01, 0x00, 0x00, 0xFF, 0xFF, 0x00, 0x00, 0x00, 0x01])

/-- 42_framer.md R152: an input of 32768*m bytes, m at least 1, has exactly m blocks, all full, only the last final. -/
def Obligations.FullMultipleHasNoEmptyBlock : Prop :=
  ∀ (s : List Byte) (m : Nat), 1 ≤ m → s.length = 32768 * m →
    frameBlocks s = (List.range m).map (fun j => block (decide (j + 1 = m)) (chunk s j))
    ∧ ∀ j < m, (chunk s j).length = 32768

/-- 42_framer.md R159 with R140: undoing the blocks of a frame and checking its trailer gives back exactly the input. -/
def Obligations.UnframeInvertsFrame : Prop := ∀ s : List Byte, unframe (frame s) = some s

/-! ## The assembly language -/

/-- 30_encoding.md R88: what each command statement and each READ means, for every unit and every form of byte operand: a decimal or
hexadecimal number up to 255 has itself as its byte, a character literal that is printable ASCII (codes 32 to 126) and
neither `'` (39) nor `\` (92) has its code, and every other operand is refused. That `printable` is 32 to 126 is log 17. -/
def Obligations.StatementsMeanTheirAccesses : Prop :=
  (Stmt.start .crc).accesses = some [busWrite .cmd 0x00000100]
  ∧ (Stmt.start .adl).accesses = some [busWrite .cmd 0x00001100]
  ∧ (Stmt.start .frm).accesses = some [busWrite .cmd 0x00002100]
  ∧ Stmt.finish.accesses = some [busWrite .cmd 0x00002300]
  ∧ (∀ (u : AsmUnit) (first n : Nat), (u, first) ∈ [(.crc, 0x200), (.adl, 0x1200), (.frm, 0x2200)] →
      let word : Word := BitVec.ofNat 32 (first + n)
      (n ≤ 255 → (Stmt.byte u (.dec n)).accesses = some [busWrite .cmd word]
        ∧ (Stmt.byte u (.hex n)).accesses = some [busWrite .cmd word])
      ∧ (255 < n → (Stmt.byte u (.dec n)).accesses = none ∧ (Stmt.byte u (.hex n)).accesses = none)
      ∧ (32 ≤ n → n ≤ 126 → n ≠ 39 → n ≠ 92 → (Stmt.byte u (.chr n)).accesses = some [busWrite .cmd word])
      ∧ (n < 32 ∨ 126 < n ∨ n = 39 ∨ n = 92 → (Stmt.byte u (.chr n)).accesses = none))
  ∧ (∀ n, n ≤ 255 → (AsmOperand.dec n).value = some (BitVec.ofNat 8 n)
      ∧ (AsmOperand.hex n).value = some (BitVec.ofNat 8 n))
  ∧ (∀ n, 255 < n → (AsmOperand.dec n).value = none ∧ (AsmOperand.hex n).value = none)
  ∧ (∀ c, 32 ≤ c → c ≤ 126 → c ≠ 39 → c ≠ 92 → (AsmOperand.chr c).value = some (BitVec.ofNat 8 c))
  ∧ (∀ c, c < 32 ∨ 126 < c ∨ c = 39 ∨ c = 92 → (AsmOperand.chr c).value = none)
  ∧ (∀ r, r ≠ .cmd → (Stmt.read r).accesses = some [busRead r])
  ∧ busWrite .cmd 0 = { offset := 0x0, size := 4, op := .write 0 }

/-- 30_encoding.md R89: what each pseudo-instruction expands into, for every string and every list of operands the assembler accepts,
the empty string among them; what the items of a string stand for: a printable ASCII character (codes 32 to 126) other
than `"` (34) and `\` (92) for its code, `\xHH` for the byte HH, and every other character is refused; and that one
refused item or operand has the whole statement refused. That `printable` is 32 to 126 is log 17. -/
def Obligations.PseudoInstructionsExpand : Prop :=
  (∀ (items : List StrItem) (bs : List Byte), items.map StrItem.value = bs.map some →
    (∀ u, (Stmt.str u items).commands = some (bs.map (byteInstr u)))
    ∧ (Stmt.whole .crc items).commands = some (.crcInit :: bs.map .crcByte)
    ∧ (Stmt.whole .adl items).commands = some (.adlInit :: bs.map .adlByte)
    ∧ (Stmt.whole .frm items).commands = some (frameCommands bs))
  ∧ (∀ (os : List AsmOperand) (bs : List Byte), os.map AsmOperand.value = bs.map some →
    ∀ u, (Stmt.bytes u os).commands = some (bs.map (byteInstr u)))
  ∧ (∀ c, 32 ≤ c → c ≤ 126 → c ≠ 34 → c ≠ 92 → (StrItem.chr c).value = some (BitVec.ofNat 8 c))
  ∧ (∀ c, c < 32 ∨ 126 < c ∨ c = 34 ∨ c = 92 → (StrItem.chr c).value = none)
  ∧ (∀ n, (n ≤ 255 → (StrItem.esc n).value = some (BitVec.ofNat 8 n)) ∧ (255 < n → (StrItem.esc n).value = none))
  ∧ (∀ (items : List StrItem) (u : AsmUnit), (∃ x ∈ items, x.value = none) →
    (Stmt.str u items).accesses = none ∧ (Stmt.whole u items).accesses = none)
  ∧ (∀ (os : List AsmOperand) (u : AsmUnit), (∃ x ∈ os, x.value = none) → (Stmt.bytes u os).accesses = none)
end

