-- ==== Sys2Proof/Laws/Checksum.lean ====
section
/-! SUPPORT. The checksum functions over appended bytes, and the range of the Adler sums. -/

namespace Sys2Proof.Machine

theorem crcRun_append (c : Word) (s t : List Byte) : crcRun c (s ++ t) = crcRun (crcRun c s) t := by
  simp [crcRun]

theorem adlRun_append (p : Half × Half) (s t : List Byte) : adlRun p (s ++ t) = adlRun (adlRun p s) t := by
  simp [adlRun]

/-- The running register from its result (40_crc32.md R101). -/
theorem crcState_of_crc32 {c : Word} {s : List Byte} (h : c ^^^ crcOnes = crc32 s) : c = crcRun crcOnes s := by
  have := congrArg (· ^^^ crcOnes) h
  simpa [crc32, BitVec.xor_assoc] using this

theorem crc32_snoc {c : Word} {s : List Byte} (h : c ^^^ crcOnes = crc32 s) (d : Byte) :
    crcUpdate8 c d ^^^ crcOnes = crc32 (s ++ [d]) := by
  rw [crcState_of_crc32 h]; simp [crc32, crcRun]

/-- A word determines its halves. -/
theorem joinHalves_inj {a b c d : Half} (h : joinHalves a b = joinHalves c d) : a = c ∧ b = d := by
  unfold joinHalves at h
  have h1 := congrArg (BitVec.extractLsb' 16 16) h
  have h2 := congrArg (BitVec.extractLsb' 0 16) h
  rw [BitVec.extractLsb'_append_eq_left, BitVec.extractLsb'_append_eq_left] at h1
  rw [BitVec.extractLsb'_append_eq_right, BitVec.extractLsb'_append_eq_right] at h2
  exact ⟨h1, h2⟩

theorem adlSums_of_adler32 {a b : Half} {s : List Byte} (h : joinHalves b a = adler32 s) : (a, b) = adlRun adlInitial s := by
  have := joinHalves_inj h
  exact Prod.ext this.2 this.1

theorem adler32_snoc {a b : Half} {s : List Byte} (h : joinHalves b a = adler32 s) (d : Byte) :
    joinHalves (adlUpdate (a, b) d).2 (adlUpdate (a, b) d).1 = adler32 (s ++ [d]) := by
  rw [adlSums_of_adler32 h]; simp [adler32, adlWord, adlRun]

theorem adlUpdate_fst_toNat (p : Half × Half) (d : Byte) :
    (adlUpdate p d).1.toNat = (p.1.toNat + d.toNat) % adlMod := by
  simp only [adlUpdate, BitVec.toNat_ofNat, adlMod]; omega

theorem adlUpdate_snd_toNat (p : Half × Half) (d : Byte) :
    (adlUpdate p d).2.toNat = (p.2.toNat + (adlUpdate p d).1.toNat) % adlMod := by
  rw [adlUpdate_fst_toNat]
  simp only [adlUpdate, BitVec.toNat_ofNat, adlMod]; omega

/-- Both results are reduced, whatever the sums were (41_adler32.md R125). -/
theorem adlUpdate_lt (p : Half × Half) (d : Byte) :
    (adlUpdate p d).1.toNat < adlMod ∧ (adlUpdate p d).2.toNat < adlMod := by
  rw [adlUpdate_snd_toNat, adlUpdate_fst_toNat]; simp only [adlMod]; omega

end Sys2Proof.Machine
end

