-- ==== Sys2Proof/Laws/Decode.lean ====
section
/-! SUPPORT. The fields of a word and the word of its fields. -/

namespace Sys2Proof

/-- A word is its three fields (30_encoding.md R80). -/
theorem cmdWord_fieldsOf (v : Word) : cmdWord (fieldsOf v).rsv (fieldsOf v).op (fieldsOf v).data = v := by
  apply BitVec.eq_of_toNat_eq
  have := v.isLt
  simp only [cmdWord, fieldsOf, BitVec.toNat_append, BitVec.extractLsb'_toNat, Nat.shiftRight_eq_div_pow]
  rw [← Nat.shiftLeft_add_eq_or_of_lt (Nat.mod_lt _ (by decide)), ← Nat.shiftLeft_add_eq_or_of_lt (Nat.mod_lt _ (by decide))]
  simp only [Nat.shiftLeft_eq]
  omega

/-- The fields of a word made of fields (30_encoding.md R80). -/
theorem fieldsOf_cmdWord (rsv : Half) (op d : Byte) : fieldsOf (cmdWord rsv op d) = { rsv := rsv, op := op, data := d } := by
  have h0 := rsv.isLt
  have h1 := op.isLt
  have h2 := d.isLt
  have key : (cmdWord rsv op d).toNat = rsv.toNat * 65536 + op.toNat * 256 + d.toNat := by
    simp only [cmdWord, BitVec.toNat_append]
    rw [← Nat.shiftLeft_add_eq_or_of_lt (by omega), ← Nat.shiftLeft_add_eq_or_of_lt (by omega)]
    simp only [Nat.shiftLeft_eq]; omega
  simp only [fieldsOf, CmdFields.mk.injEq]
  refine ⟨?_, ?_, ?_⟩ <;> apply BitVec.eq_of_toNat_eq <;>
    simp only [BitVec.extractLsb'_toNat, Nat.shiftRight_eq_div_pow, key] <;> omega

theorem fieldsOf_packWord (op d : Byte) : fieldsOf (packWord op d) = { rsv := 0x0000, op := op, data := d } :=
  fieldsOf_cmdWord _ _ _

end Sys2Proof
end

