-- ==== Sys2Proof/Laws/Memory.lean ====
section
/-! SUPPORT. FRM_BUF as data: read after write, and every write keeps the canonical form. -/

namespace Sys2Proof.Machine

theorem Memory.read_write_same (m : Memory) (i : Nat) (b : Byte) :
    Memory.read (Memory.write m i b) i = some b := by
  induction m with
  | nil => simp [Memory.write, Memory.read]
  | cons c m ih =>
    obtain ⟨k, c⟩ := c
    unfold Memory.write
    split
    · simp [Memory.read]
    · split
      · simp [Memory.read]
      · rename_i h; simp [Memory.read, Ne.symm h, ih]

theorem Memory.read_write_other (m : Memory) {i j : Nat} (b : Byte) (h : j ≠ i) :
    Memory.read (Memory.write m i b) j = Memory.read m j := by
  induction m with
  | nil => simp [Memory.write, Memory.read, Ne.symm h]
  | cons c m ih =>
    obtain ⟨k, c⟩ := c
    unfold Memory.write
    split
    · simp [Memory.read, Ne.symm h]
    · split
      · rename_i hk; subst hk; simp [Memory.read, Ne.symm h]
      · simp [Memory.read, ih]

theorem Memory.wfFrom_write {m : Memory} {low i : Nat} (b : Byte) (hl : low ≤ i) (hi : i < window)
    (hw : Memory.wfFrom low m = true) : Memory.wfFrom low (Memory.write m i b) = true := by
  induction m generalizing low with
  | nil => simp [Memory.write, Memory.wfFrom, hl, hi]
  | cons c m ih =>
    obtain ⟨k, c⟩ := c
    simp only [Memory.wfFrom, Bool.and_eq_true, decide_eq_true_eq] at hw
    unfold Memory.write
    split
    · simp only [Memory.wfFrom, Bool.and_eq_true, decide_eq_true_eq]; exact ⟨⟨hl, hi⟩, ⟨by omega, hw.1.2⟩, hw.2⟩
    · split
      · rename_i hk; subst hk; simp only [Memory.wfFrom, Bool.and_eq_true, decide_eq_true_eq]; exact hw
      · simp only [Memory.wfFrom, Bool.and_eq_true, decide_eq_true_eq]; exact ⟨hw.1, ih (by omega) hw.2⟩

/-- A write inside the buffer keeps the canonical form. -/
theorem Memory.wf_write {m : Memory} {i : Nat} (b : Byte) (hi : i < window) (hw : Memory.wf m = true) :
    Memory.wf (Memory.write m i b) = true :=
  Memory.wfFrom_write b (Nat.zero_le i) hi hw

end Sys2Proof.Machine
end

