-- ==== Sys2Proof/Laws/State.lean ====
section
/-! SUPPORT. What each update of State leaves in each field: one lemma per field per update, so that no later proof unfolds a
record update. -/

namespace Sys2Proof.Machine

namespace State

@[simp] theorem setCrcState_crcState (s : State) (v : Word) : (s.setCrcState v).crcState = v := rfl
@[simp] theorem setCrcState_adlA (s : State) (v : Word) : (s.setCrcState v).adlA = s.adlA := rfl
@[simp] theorem setCrcState_adlB (s : State) (v : Word) : (s.setCrcState v).adlB = s.adlB := rfl
@[simp] theorem setCrcState_frmOpen (s : State) (v : Word) : (s.setCrcState v).frmOpen = s.frmOpen := rfl
@[simp] theorem setCrcState_frmCount (s : State) (v : Word) : (s.setCrcState v).frmCount = s.frmCount := rfl
@[simp] theorem setCrcState_frmBuf (s : State) (v : Word) : (s.setCrcState v).frmBuf = s.frmBuf := rfl
@[simp] theorem setCrcState_frmA (s : State) (v : Word) : (s.setCrcState v).frmA = s.frmA := rfl
@[simp] theorem setCrcState_frmB (s : State) (v : Word) : (s.setCrcState v).frmB = s.frmB := rfl
@[simp] theorem setCrcState_err (s : State) (v : Word) : (s.setCrcState v).err = s.err := rfl
@[simp] theorem setCrcState_errCode (s : State) (v : Word) : (s.setCrcState v).errCode = s.errCode := rfl
@[simp] theorem setCrcState_emitQ (s : State) (v : Word) : (s.setCrcState v).emitQ = s.emitQ := rfl
@[simp] theorem setCrcState_outFifo (s : State) (v : Word) : (s.setCrcState v).outFifo = s.outFifo := rfl
@[simp] theorem setCrcState_ghost (s : State) (v : Word) : (s.setCrcState v).ghost = s.ghost := rfl
@[simp] theorem setCrcState_env (s : State) (v : Word) : (s.setCrcState v).env = s.env := rfl

@[simp] theorem setAdl_crcState (s : State) (p : Half × Half) : (s.setAdl p).crcState = s.crcState := rfl
@[simp] theorem setAdl_adlA (s : State) (p : Half × Half) : (s.setAdl p).adlA = p.1 := rfl
@[simp] theorem setAdl_adlB (s : State) (p : Half × Half) : (s.setAdl p).adlB = p.2 := rfl
@[simp] theorem setAdl_frmOpen (s : State) (p : Half × Half) : (s.setAdl p).frmOpen = s.frmOpen := rfl
@[simp] theorem setAdl_frmCount (s : State) (p : Half × Half) : (s.setAdl p).frmCount = s.frmCount := rfl
@[simp] theorem setAdl_frmBuf (s : State) (p : Half × Half) : (s.setAdl p).frmBuf = s.frmBuf := rfl
@[simp] theorem setAdl_frmA (s : State) (p : Half × Half) : (s.setAdl p).frmA = s.frmA := rfl
@[simp] theorem setAdl_frmB (s : State) (p : Half × Half) : (s.setAdl p).frmB = s.frmB := rfl
@[simp] theorem setAdl_err (s : State) (p : Half × Half) : (s.setAdl p).err = s.err := rfl
@[simp] theorem setAdl_errCode (s : State) (p : Half × Half) : (s.setAdl p).errCode = s.errCode := rfl
@[simp] theorem setAdl_emitQ (s : State) (p : Half × Half) : (s.setAdl p).emitQ = s.emitQ := rfl
@[simp] theorem setAdl_outFifo (s : State) (p : Half × Half) : (s.setAdl p).outFifo = s.outFifo := rfl
@[simp] theorem setAdl_ghost (s : State) (p : Half × Half) : (s.setAdl p).ghost = s.ghost := rfl
@[simp] theorem setAdl_env (s : State) (p : Half × Half) : (s.setAdl p).env = s.env := rfl

@[simp] theorem setFrmOpen_crcState (s : State) (b : Bool) : (s.setFrmOpen b).crcState = s.crcState := rfl
@[simp] theorem setFrmOpen_adlA (s : State) (b : Bool) : (s.setFrmOpen b).adlA = s.adlA := rfl
@[simp] theorem setFrmOpen_adlB (s : State) (b : Bool) : (s.setFrmOpen b).adlB = s.adlB := rfl
@[simp] theorem setFrmOpen_frmOpen (s : State) (b : Bool) : (s.setFrmOpen b).frmOpen = b := rfl
@[simp] theorem setFrmOpen_frmCount (s : State) (b : Bool) : (s.setFrmOpen b).frmCount = s.frmCount := rfl
@[simp] theorem setFrmOpen_frmBuf (s : State) (b : Bool) : (s.setFrmOpen b).frmBuf = s.frmBuf := rfl
@[simp] theorem setFrmOpen_frmA (s : State) (b : Bool) : (s.setFrmOpen b).frmA = s.frmA := rfl
@[simp] theorem setFrmOpen_frmB (s : State) (b : Bool) : (s.setFrmOpen b).frmB = s.frmB := rfl
@[simp] theorem setFrmOpen_err (s : State) (b : Bool) : (s.setFrmOpen b).err = s.err := rfl
@[simp] theorem setFrmOpen_errCode (s : State) (b : Bool) : (s.setFrmOpen b).errCode = s.errCode := rfl
@[simp] theorem setFrmOpen_emitQ (s : State) (b : Bool) : (s.setFrmOpen b).emitQ = s.emitQ := rfl
@[simp] theorem setFrmOpen_outFifo (s : State) (b : Bool) : (s.setFrmOpen b).outFifo = s.outFifo := rfl
@[simp] theorem setFrmOpen_ghost (s : State) (b : Bool) : (s.setFrmOpen b).ghost = s.ghost := rfl
@[simp] theorem setFrmOpen_env (s : State) (b : Bool) : (s.setFrmOpen b).env = s.env := rfl

@[simp] theorem setFrmCount_crcState (s : State) (n : Half) : (s.setFrmCount n).crcState = s.crcState := rfl
@[simp] theorem setFrmCount_adlA (s : State) (n : Half) : (s.setFrmCount n).adlA = s.adlA := rfl
@[simp] theorem setFrmCount_adlB (s : State) (n : Half) : (s.setFrmCount n).adlB = s.adlB := rfl
@[simp] theorem setFrmCount_frmOpen (s : State) (n : Half) : (s.setFrmCount n).frmOpen = s.frmOpen := rfl
@[simp] theorem setFrmCount_frmCount (s : State) (n : Half) : (s.setFrmCount n).frmCount = n := rfl
@[simp] theorem setFrmCount_frmBuf (s : State) (n : Half) : (s.setFrmCount n).frmBuf = s.frmBuf := rfl
@[simp] theorem setFrmCount_frmA (s : State) (n : Half) : (s.setFrmCount n).frmA = s.frmA := rfl
@[simp] theorem setFrmCount_frmB (s : State) (n : Half) : (s.setFrmCount n).frmB = s.frmB := rfl
@[simp] theorem setFrmCount_err (s : State) (n : Half) : (s.setFrmCount n).err = s.err := rfl
@[simp] theorem setFrmCount_errCode (s : State) (n : Half) : (s.setFrmCount n).errCode = s.errCode := rfl
@[simp] theorem setFrmCount_emitQ (s : State) (n : Half) : (s.setFrmCount n).emitQ = s.emitQ := rfl
@[simp] theorem setFrmCount_outFifo (s : State) (n : Half) : (s.setFrmCount n).outFifo = s.outFifo := rfl
@[simp] theorem setFrmCount_ghost (s : State) (n : Half) : (s.setFrmCount n).ghost = s.ghost := rfl
@[simp] theorem setFrmCount_env (s : State) (n : Half) : (s.setFrmCount n).env = s.env := rfl

@[simp] theorem setFrmBuf_crcState (s : State) (m : Memory) : (s.setFrmBuf m).crcState = s.crcState := rfl
@[simp] theorem setFrmBuf_adlA (s : State) (m : Memory) : (s.setFrmBuf m).adlA = s.adlA := rfl
@[simp] theorem setFrmBuf_adlB (s : State) (m : Memory) : (s.setFrmBuf m).adlB = s.adlB := rfl
@[simp] theorem setFrmBuf_frmOpen (s : State) (m : Memory) : (s.setFrmBuf m).frmOpen = s.frmOpen := rfl
@[simp] theorem setFrmBuf_frmCount (s : State) (m : Memory) : (s.setFrmBuf m).frmCount = s.frmCount := rfl
@[simp] theorem setFrmBuf_frmBuf (s : State) (m : Memory) : (s.setFrmBuf m).frmBuf = m := rfl
@[simp] theorem setFrmBuf_frmA (s : State) (m : Memory) : (s.setFrmBuf m).frmA = s.frmA := rfl
@[simp] theorem setFrmBuf_frmB (s : State) (m : Memory) : (s.setFrmBuf m).frmB = s.frmB := rfl
@[simp] theorem setFrmBuf_err (s : State) (m : Memory) : (s.setFrmBuf m).err = s.err := rfl
@[simp] theorem setFrmBuf_errCode (s : State) (m : Memory) : (s.setFrmBuf m).errCode = s.errCode := rfl
@[simp] theorem setFrmBuf_emitQ (s : State) (m : Memory) : (s.setFrmBuf m).emitQ = s.emitQ := rfl
@[simp] theorem setFrmBuf_outFifo (s : State) (m : Memory) : (s.setFrmBuf m).outFifo = s.outFifo := rfl
@[simp] theorem setFrmBuf_ghost (s : State) (m : Memory) : (s.setFrmBuf m).ghost = s.ghost := rfl
@[simp] theorem setFrmBuf_env (s : State) (m : Memory) : (s.setFrmBuf m).env = s.env := rfl

@[simp] theorem setFrmSums_crcState (s : State) (p : Half × Half) : (s.setFrmSums p).crcState = s.crcState := rfl
@[simp] theorem setFrmSums_adlA (s : State) (p : Half × Half) : (s.setFrmSums p).adlA = s.adlA := rfl
@[simp] theorem setFrmSums_adlB (s : State) (p : Half × Half) : (s.setFrmSums p).adlB = s.adlB := rfl
@[simp] theorem setFrmSums_frmOpen (s : State) (p : Half × Half) : (s.setFrmSums p).frmOpen = s.frmOpen := rfl
@[simp] theorem setFrmSums_frmCount (s : State) (p : Half × Half) : (s.setFrmSums p).frmCount = s.frmCount := rfl
@[simp] theorem setFrmSums_frmBuf (s : State) (p : Half × Half) : (s.setFrmSums p).frmBuf = s.frmBuf := rfl
@[simp] theorem setFrmSums_frmA (s : State) (p : Half × Half) : (s.setFrmSums p).frmA = p.1 := rfl
@[simp] theorem setFrmSums_frmB (s : State) (p : Half × Half) : (s.setFrmSums p).frmB = p.2 := rfl
@[simp] theorem setFrmSums_err (s : State) (p : Half × Half) : (s.setFrmSums p).err = s.err := rfl
@[simp] theorem setFrmSums_errCode (s : State) (p : Half × Half) : (s.setFrmSums p).errCode = s.errCode := rfl
@[simp] theorem setFrmSums_emitQ (s : State) (p : Half × Half) : (s.setFrmSums p).emitQ = s.emitQ := rfl
@[simp] theorem setFrmSums_outFifo (s : State) (p : Half × Half) : (s.setFrmSums p).outFifo = s.outFifo := rfl
@[simp] theorem setFrmSums_ghost (s : State) (p : Half × Half) : (s.setFrmSums p).ghost = s.ghost := rfl
@[simp] theorem setFrmSums_env (s : State) (p : Half × Half) : (s.setFrmSums p).env = s.env := rfl

@[simp] theorem setErr_crcState (s : State) (b : Bool) (c : Nibble) : (s.setErr b c).crcState = s.crcState := rfl
@[simp] theorem setErr_adlA (s : State) (b : Bool) (c : Nibble) : (s.setErr b c).adlA = s.adlA := rfl
@[simp] theorem setErr_adlB (s : State) (b : Bool) (c : Nibble) : (s.setErr b c).adlB = s.adlB := rfl
@[simp] theorem setErr_frmOpen (s : State) (b : Bool) (c : Nibble) : (s.setErr b c).frmOpen = s.frmOpen := rfl
@[simp] theorem setErr_frmCount (s : State) (b : Bool) (c : Nibble) : (s.setErr b c).frmCount = s.frmCount := rfl
@[simp] theorem setErr_frmBuf (s : State) (b : Bool) (c : Nibble) : (s.setErr b c).frmBuf = s.frmBuf := rfl
@[simp] theorem setErr_frmA (s : State) (b : Bool) (c : Nibble) : (s.setErr b c).frmA = s.frmA := rfl
@[simp] theorem setErr_frmB (s : State) (b : Bool) (c : Nibble) : (s.setErr b c).frmB = s.frmB := rfl
@[simp] theorem setErr_err (s : State) (b : Bool) (c : Nibble) : (s.setErr b c).err = b := rfl
@[simp] theorem setErr_errCode (s : State) (b : Bool) (c : Nibble) : (s.setErr b c).errCode = c := rfl
@[simp] theorem setErr_emitQ (s : State) (b : Bool) (c : Nibble) : (s.setErr b c).emitQ = s.emitQ := rfl
@[simp] theorem setErr_outFifo (s : State) (b : Bool) (c : Nibble) : (s.setErr b c).outFifo = s.outFifo := rfl
@[simp] theorem setErr_ghost (s : State) (b : Bool) (c : Nibble) : (s.setErr b c).ghost = s.ghost := rfl
@[simp] theorem setErr_env (s : State) (b : Bool) (c : Nibble) : (s.setErr b c).env = s.env := rfl

@[simp] theorem setEmitQ_crcState (s : State) (q : List Byte) : (s.setEmitQ q).crcState = s.crcState := rfl
@[simp] theorem setEmitQ_adlA (s : State) (q : List Byte) : (s.setEmitQ q).adlA = s.adlA := rfl
@[simp] theorem setEmitQ_adlB (s : State) (q : List Byte) : (s.setEmitQ q).adlB = s.adlB := rfl
@[simp] theorem setEmitQ_frmOpen (s : State) (q : List Byte) : (s.setEmitQ q).frmOpen = s.frmOpen := rfl
@[simp] theorem setEmitQ_frmCount (s : State) (q : List Byte) : (s.setEmitQ q).frmCount = s.frmCount := rfl
@[simp] theorem setEmitQ_frmBuf (s : State) (q : List Byte) : (s.setEmitQ q).frmBuf = s.frmBuf := rfl
@[simp] theorem setEmitQ_frmA (s : State) (q : List Byte) : (s.setEmitQ q).frmA = s.frmA := rfl
@[simp] theorem setEmitQ_frmB (s : State) (q : List Byte) : (s.setEmitQ q).frmB = s.frmB := rfl
@[simp] theorem setEmitQ_err (s : State) (q : List Byte) : (s.setEmitQ q).err = s.err := rfl
@[simp] theorem setEmitQ_errCode (s : State) (q : List Byte) : (s.setEmitQ q).errCode = s.errCode := rfl
@[simp] theorem setEmitQ_emitQ (s : State) (q : List Byte) : (s.setEmitQ q).emitQ = q := rfl
@[simp] theorem setEmitQ_outFifo (s : State) (q : List Byte) : (s.setEmitQ q).outFifo = s.outFifo := rfl
@[simp] theorem setEmitQ_ghost (s : State) (q : List Byte) : (s.setEmitQ q).ghost = s.ghost := rfl
@[simp] theorem setEmitQ_env (s : State) (q : List Byte) : (s.setEmitQ q).env = s.env := rfl

@[simp] theorem setOutFifo_crcState (s : State) (q : List Byte) : (s.setOutFifo q).crcState = s.crcState := rfl
@[simp] theorem setOutFifo_adlA (s : State) (q : List Byte) : (s.setOutFifo q).adlA = s.adlA := rfl
@[simp] theorem setOutFifo_adlB (s : State) (q : List Byte) : (s.setOutFifo q).adlB = s.adlB := rfl
@[simp] theorem setOutFifo_frmOpen (s : State) (q : List Byte) : (s.setOutFifo q).frmOpen = s.frmOpen := rfl
@[simp] theorem setOutFifo_frmCount (s : State) (q : List Byte) : (s.setOutFifo q).frmCount = s.frmCount := rfl
@[simp] theorem setOutFifo_frmBuf (s : State) (q : List Byte) : (s.setOutFifo q).frmBuf = s.frmBuf := rfl
@[simp] theorem setOutFifo_frmA (s : State) (q : List Byte) : (s.setOutFifo q).frmA = s.frmA := rfl
@[simp] theorem setOutFifo_frmB (s : State) (q : List Byte) : (s.setOutFifo q).frmB = s.frmB := rfl
@[simp] theorem setOutFifo_err (s : State) (q : List Byte) : (s.setOutFifo q).err = s.err := rfl
@[simp] theorem setOutFifo_errCode (s : State) (q : List Byte) : (s.setOutFifo q).errCode = s.errCode := rfl
@[simp] theorem setOutFifo_emitQ (s : State) (q : List Byte) : (s.setOutFifo q).emitQ = s.emitQ := rfl
@[simp] theorem setOutFifo_outFifo (s : State) (q : List Byte) : (s.setOutFifo q).outFifo = q := rfl
@[simp] theorem setOutFifo_ghost (s : State) (q : List Byte) : (s.setOutFifo q).ghost = s.ghost := rfl
@[simp] theorem setOutFifo_env (s : State) (q : List Byte) : (s.setOutFifo q).env = s.env := rfl

@[simp] theorem setGhost_crcState (s : State) (g : Ghost) : (s.setGhost g).crcState = s.crcState := rfl
@[simp] theorem setGhost_adlA (s : State) (g : Ghost) : (s.setGhost g).adlA = s.adlA := rfl
@[simp] theorem setGhost_adlB (s : State) (g : Ghost) : (s.setGhost g).adlB = s.adlB := rfl
@[simp] theorem setGhost_frmOpen (s : State) (g : Ghost) : (s.setGhost g).frmOpen = s.frmOpen := rfl
@[simp] theorem setGhost_frmCount (s : State) (g : Ghost) : (s.setGhost g).frmCount = s.frmCount := rfl
@[simp] theorem setGhost_frmBuf (s : State) (g : Ghost) : (s.setGhost g).frmBuf = s.frmBuf := rfl
@[simp] theorem setGhost_frmA (s : State) (g : Ghost) : (s.setGhost g).frmA = s.frmA := rfl
@[simp] theorem setGhost_frmB (s : State) (g : Ghost) : (s.setGhost g).frmB = s.frmB := rfl
@[simp] theorem setGhost_err (s : State) (g : Ghost) : (s.setGhost g).err = s.err := rfl
@[simp] theorem setGhost_errCode (s : State) (g : Ghost) : (s.setGhost g).errCode = s.errCode := rfl
@[simp] theorem setGhost_emitQ (s : State) (g : Ghost) : (s.setGhost g).emitQ = s.emitQ := rfl
@[simp] theorem setGhost_outFifo (s : State) (g : Ghost) : (s.setGhost g).outFifo = s.outFifo := rfl
@[simp] theorem setGhost_ghost (s : State) (g : Ghost) : (s.setGhost g).ghost = g := rfl
@[simp] theorem setGhost_env (s : State) (g : Ghost) : (s.setGhost g).env = s.env := rfl

@[simp] theorem setEnv_crcState (s : State) (e : Env) : (s.setEnv e).crcState = s.crcState := rfl
@[simp] theorem setEnv_adlA (s : State) (e : Env) : (s.setEnv e).adlA = s.adlA := rfl
@[simp] theorem setEnv_adlB (s : State) (e : Env) : (s.setEnv e).adlB = s.adlB := rfl
@[simp] theorem setEnv_frmOpen (s : State) (e : Env) : (s.setEnv e).frmOpen = s.frmOpen := rfl
@[simp] theorem setEnv_frmCount (s : State) (e : Env) : (s.setEnv e).frmCount = s.frmCount := rfl
@[simp] theorem setEnv_frmBuf (s : State) (e : Env) : (s.setEnv e).frmBuf = s.frmBuf := rfl
@[simp] theorem setEnv_frmA (s : State) (e : Env) : (s.setEnv e).frmA = s.frmA := rfl
@[simp] theorem setEnv_frmB (s : State) (e : Env) : (s.setEnv e).frmB = s.frmB := rfl
@[simp] theorem setEnv_err (s : State) (e : Env) : (s.setEnv e).err = s.err := rfl
@[simp] theorem setEnv_errCode (s : State) (e : Env) : (s.setEnv e).errCode = s.errCode := rfl
@[simp] theorem setEnv_emitQ (s : State) (e : Env) : (s.setEnv e).emitQ = s.emitQ := rfl
@[simp] theorem setEnv_outFifo (s : State) (e : Env) : (s.setEnv e).outFifo = s.outFifo := rfl
@[simp] theorem setEnv_ghost (s : State) (e : Env) : (s.setEnv e).ghost = s.ghost := rfl
@[simp] theorem setEnv_env (s : State) (e : Env) : (s.setEnv e).env = e := rfl

end State

end Sys2Proof.Machine
end

