-- ==== Sys2Proof/Laws/Ops.lean ====
section
/-! SUPPORT. One lemma for each shared operation: everything it does. -/

namespace Sys2Proof.Machine

/-! Emit -/

theorem emitSeq_append (a b : List Byte) (s : State) : emitSeq b (emitSeq a s) = emitSeq (a ++ b) s := by
  simp [emitSeq, State.setEmitQ, State.setGhost]

@[simp] theorem emitSeq_crcState (bs : List Byte) (s : State) : (emitSeq bs s).crcState = s.crcState := rfl
@[simp] theorem emitSeq_adlA (bs : List Byte) (s : State) : (emitSeq bs s).adlA = s.adlA := rfl
@[simp] theorem emitSeq_adlB (bs : List Byte) (s : State) : (emitSeq bs s).adlB = s.adlB := rfl
@[simp] theorem emitSeq_frmOpen (bs : List Byte) (s : State) : (emitSeq bs s).frmOpen = s.frmOpen := rfl
@[simp] theorem emitSeq_frmCount (bs : List Byte) (s : State) : (emitSeq bs s).frmCount = s.frmCount := rfl
@[simp] theorem emitSeq_frmBuf (bs : List Byte) (s : State) : (emitSeq bs s).frmBuf = s.frmBuf := rfl
@[simp] theorem emitSeq_frmA (bs : List Byte) (s : State) : (emitSeq bs s).frmA = s.frmA := rfl
@[simp] theorem emitSeq_frmB (bs : List Byte) (s : State) : (emitSeq bs s).frmB = s.frmB := rfl
@[simp] theorem emitSeq_err (bs : List Byte) (s : State) : (emitSeq bs s).err = s.err := rfl
@[simp] theorem emitSeq_errCode (bs : List Byte) (s : State) : (emitSeq bs s).errCode = s.errCode := rfl
@[simp] theorem emitSeq_emitQ (bs : List Byte) (s : State) : (emitSeq bs s).emitQ = s.emitQ ++ bs := rfl
@[simp] theorem emitSeq_outFifo (bs : List Byte) (s : State) : (emitSeq bs s).outFifo = s.outFifo := rfl
@[simp] theorem emitSeq_ghost (bs : List Byte) (s : State) :
    (emitSeq bs s).ghost = { s.ghost with outLog := s.ghost.outLog ++ bs } := rfl
@[simp] theorem emitSeq_env (bs : List Byte) (s : State) : (emitSeq bs s).env = s.env := rfl

/-! FRM_BUF -/

theorem bufRead_congr {s t : State} (h : s.frmBuf = t.frmBuf) (i : Nat) : bufRead s i = bufRead t i := by
  simp [bufRead, h]

@[simp] theorem bufRead_emitSeq (bs : List Byte) (s : State) (i : Nat) : bufRead (emitSeq bs s) i = bufRead s i := rfl
@[simp] theorem bufRead_setFrmOpen (b : Bool) (s : State) (i : Nat) : bufRead (s.setFrmOpen b) i = bufRead s i := rfl
@[simp] theorem bufRead_setFrmCount (n : Half) (s : State) (i : Nat) : bufRead (s.setFrmCount n) i = bufRead s i := rfl
@[simp] theorem bufRead_setFrmSums (p : Half × Half) (s : State) (i : Nat) : bufRead (s.setFrmSums p) i = bufRead s i := rfl
@[simp] theorem bufRead_setGhost (g : Ghost) (s : State) (i : Nat) : bufRead (s.setGhost g) i = bufRead s i := rfl
@[simp] theorem bufRead_setEnv (e : Env) (s : State) (i : Nat) : bufRead (s.setEnv e) i = bufRead s i := rfl
@[simp] theorem bufRead_setErr (b : Bool) (c : Nibble) (s : State) (i : Nat) : bufRead (s.setErr b c) i = bufRead s i := rfl

theorem bufRead_bufWrite_same (i : Nat) (b : Byte) (s : State) : bufRead (bufWrite i b s) i = b := by
  simp [bufRead, bufWrite, Memory.read_write_same]

theorem bufRead_bufWrite_other {i j : Nat} (b : Byte) (s : State) (h : j ≠ i) :
    bufRead (bufWrite i b s) j = bufRead s j := by
  simp [bufRead, bufWrite, Memory.read_write_other _ _ h]

@[simp] theorem length_bufTake (s : State) (n : Nat) : (bufTake s n).length = n := by simp [bufTake]

theorem bufTake_congr {s t : State} {n : Nat} (h : ∀ i < n, bufRead s i = bufRead t i) : bufTake s n = bufTake t n := by
  simpa [bufTake] using h

@[simp] theorem bufTake_emitSeq (bs : List Byte) (s : State) (n : Nat) : bufTake (emitSeq bs s) n = bufTake s n := rfl

/-- EmitBlock emits exactly block(f, the first n bytes of FRM_BUF) (42_framer.md R141, R144). -/
theorem emitBlock_eq (final : Bool) (n : Half) (s : State) :
    emitBlock final n s = emitSeq (block final (bufTake s n.toNat)) s := by
  simp [emitBlock, emit, emitSeq_append, block]

/-! The lock and the range check -/

theorem unlessLocked_locked {s : State} (h : s.err = true) (r : Result) : unlessLocked s r = .next s := by
  simp [unlessLocked, h]

theorem unlessLocked_unlocked {s : State} (h : s.err = false) (r : Result) : unlessLocked s r = r := by
  simp [unlessLocked, h]

theorem withinBuffer_next {s : State} (h : s.frmCount.toNat ≤ window) (t : State) : withinBuffer s t = .next t := by
  simp [withinBuffer, Nat.not_lt.mpr h]

theorem withinBuffer_cases {s t u : State} (h : withinBuffer s t = .next u) : s.frmCount.toNat ≤ window ∧ u = t := by
  unfold withinBuffer at h
  split at h
  · cases h
  · cases h; exact ⟨by omega, rfl⟩

/-! A command error -/

@[simp] theorem raiseError_err (e : CmdError) (s : State) : (raiseError e s).err = true := rfl
@[simp] theorem raiseError_errCode (e : CmdError) (s : State) : (raiseError e s).errCode = CmdError.code e := rfl

theorem CmdError.code_ne_zero (e : CmdError) : CmdError.code e ≠ 0 := by cases e <;> decide

theorem CmdError.code_le (e : CmdError) : (CmdError.code e).toNat ≤ 4 := by cases e <;> decide

/-- A reset in the state after reset changes nothing, so State.reset is a state that a reset leaves (70_reset_and_hazards.md
R190). -/
@[simp] theorem resetEvent_reset : resetEvent State.reset = State.reset := rfl

end Sys2Proof.Machine
end

