-- ==== Sys2Proof/Laws/Framer.lean ====
section
/-! SUPPORT. The framer's state changes field by field: openFrame, flushFull, storeByte, closeFrame. -/

namespace Sys2Proof.Machine

/-- What FRM.BYTE emits before it stores (42_framer.md R146). -/
theorem flushFull_eq (s : State) : flushFull s =
    if s.frmCount = fullCount then (emitSeq (block false (bufTake s window)) s).setFrmCount 0 else s := by
  unfold flushFull; split
  · rw [emitBlock_eq]; rfl
  · rfl

theorem flushFull_full {s : State} (h : s.frmCount = fullCount) :
    flushFull s = (emitSeq (block false (bufTake s window)) s).setFrmCount 0 := by
  rw [flushFull_eq, if_pos h]

theorem flushFull_notFull {s : State} (h : s.frmCount ≠ fullCount) : flushFull s = s := by
  rw [flushFull_eq, if_neg h]

@[simp] theorem openFrame_crcState (s : State) : (openFrame s).crcState = s.crcState := rfl
@[simp] theorem openFrame_adlA (s : State) : (openFrame s).adlA = s.adlA := rfl
@[simp] theorem openFrame_adlB (s : State) : (openFrame s).adlB = s.adlB := rfl
@[simp] theorem openFrame_frmOpen (s : State) : (openFrame s).frmOpen = true := rfl
@[simp] theorem openFrame_frmCount (s : State) : (openFrame s).frmCount = 0 := rfl
@[simp] theorem openFrame_frmBuf (s : State) : (openFrame s).frmBuf = s.frmBuf := rfl
@[simp] theorem openFrame_frmA (s : State) : (openFrame s).frmA = adlInitial.1 := rfl
@[simp] theorem openFrame_frmB (s : State) : (openFrame s).frmB = adlInitial.2 := rfl
@[simp] theorem openFrame_err (s : State) : (openFrame s).err = s.err := rfl
@[simp] theorem openFrame_errCode (s : State) : (openFrame s).errCode = s.errCode := rfl
@[simp] theorem openFrame_emitQ (s : State) : (openFrame s).emitQ = s.emitQ ++ zlibHeader := rfl
@[simp] theorem openFrame_outFifo (s : State) : (openFrame s).outFifo = s.outFifo := rfl
@[simp] theorem openFrame_env (s : State) : (openFrame s).env = s.env := rfl
@[simp] theorem openFrame_crcSeen (s : State) : (openFrame s).ghost.crcSeen = s.ghost.crcSeen := rfl
@[simp] theorem openFrame_adlSeen (s : State) : (openFrame s).ghost.adlSeen = s.ghost.adlSeen := rfl
@[simp] theorem openFrame_frmSeen (s : State) : (openFrame s).ghost.frmSeen = some [] := rfl
@[simp] theorem openFrame_outLog (s : State) : (openFrame s).ghost.outLog = s.ghost.outLog ++ zlibHeader := rfl

@[simp] theorem flushFull_crcState (s : State) : (flushFull s).crcState = s.crcState := by
  rw [flushFull_eq]; split <;> rfl
@[simp] theorem flushFull_adlA (s : State) : (flushFull s).adlA = s.adlA := by
  rw [flushFull_eq]; split <;> rfl
@[simp] theorem flushFull_adlB (s : State) : (flushFull s).adlB = s.adlB := by
  rw [flushFull_eq]; split <;> rfl
@[simp] theorem flushFull_frmOpen (s : State) : (flushFull s).frmOpen = s.frmOpen := by
  rw [flushFull_eq]; split <;> rfl
@[simp] theorem flushFull_frmBuf (s : State) : (flushFull s).frmBuf = s.frmBuf := by
  rw [flushFull_eq]; split <;> rfl
@[simp] theorem flushFull_frmA (s : State) : (flushFull s).frmA = s.frmA := by
  rw [flushFull_eq]; split <;> rfl
@[simp] theorem flushFull_frmB (s : State) : (flushFull s).frmB = s.frmB := by
  rw [flushFull_eq]; split <;> rfl
@[simp] theorem flushFull_err (s : State) : (flushFull s).err = s.err := by
  rw [flushFull_eq]; split <;> rfl
@[simp] theorem flushFull_errCode (s : State) : (flushFull s).errCode = s.errCode := by
  rw [flushFull_eq]; split <;> rfl
@[simp] theorem flushFull_outFifo (s : State) : (flushFull s).outFifo = s.outFifo := by
  rw [flushFull_eq]; split <;> rfl
@[simp] theorem flushFull_env (s : State) : (flushFull s).env = s.env := by
  rw [flushFull_eq]; split <;> rfl
@[simp] theorem flushFull_crcSeen (s : State) : (flushFull s).ghost.crcSeen = s.ghost.crcSeen := by
  rw [flushFull_eq]; split <;> rfl
@[simp] theorem flushFull_adlSeen (s : State) : (flushFull s).ghost.adlSeen = s.ghost.adlSeen := by
  rw [flushFull_eq]; split <;> rfl
@[simp] theorem flushFull_frmSeen (s : State) : (flushFull s).ghost.frmSeen = s.ghost.frmSeen := by
  rw [flushFull_eq]; split <;> rfl

@[simp] theorem storeByte_crcState (d : Byte) (s : State) : (storeByte d s).crcState = s.crcState := rfl
@[simp] theorem storeByte_adlA (d : Byte) (s : State) : (storeByte d s).adlA = s.adlA := rfl
@[simp] theorem storeByte_adlB (d : Byte) (s : State) : (storeByte d s).adlB = s.adlB := rfl
@[simp] theorem storeByte_frmOpen (d : Byte) (s : State) : (storeByte d s).frmOpen = s.frmOpen := rfl
@[simp] theorem storeByte_frmCount (d : Byte) (s : State) : (storeByte d s).frmCount = s.frmCount + 1 := rfl
@[simp] theorem storeByte_frmBuf (d : Byte) (s : State) : (storeByte d s).frmBuf = Memory.write s.frmBuf s.frmCount.toNat d := rfl
@[simp] theorem storeByte_frmA (d : Byte) (s : State) : (storeByte d s).frmA = (adlUpdate (s.frmA, s.frmB) d).1 := rfl
@[simp] theorem storeByte_frmB (d : Byte) (s : State) : (storeByte d s).frmB = (adlUpdate (s.frmA, s.frmB) d).2 := rfl
@[simp] theorem storeByte_err (d : Byte) (s : State) : (storeByte d s).err = s.err := rfl
@[simp] theorem storeByte_errCode (d : Byte) (s : State) : (storeByte d s).errCode = s.errCode := rfl
@[simp] theorem storeByte_emitQ (d : Byte) (s : State) : (storeByte d s).emitQ = s.emitQ := rfl
@[simp] theorem storeByte_outFifo (d : Byte) (s : State) : (storeByte d s).outFifo = s.outFifo := rfl
@[simp] theorem storeByte_env (d : Byte) (s : State) : (storeByte d s).env = s.env := rfl
@[simp] theorem storeByte_crcSeen (d : Byte) (s : State) : (storeByte d s).ghost.crcSeen = s.ghost.crcSeen := rfl
@[simp] theorem storeByte_adlSeen (d : Byte) (s : State) : (storeByte d s).ghost.adlSeen = s.ghost.adlSeen := rfl
@[simp] theorem storeByte_frmSeen (d : Byte) (s : State) : (storeByte d s).ghost.frmSeen = s.ghost.frmSeen.map (· ++ [d]) := rfl
@[simp] theorem storeByte_outLog (d : Byte) (s : State) : (storeByte d s).ghost.outLog = s.ghost.outLog := rfl

@[simp] theorem closeFrame_crcState (s : State) : (closeFrame s).crcState = s.crcState := by
  simp [closeFrame, emitBlock_eq]
@[simp] theorem closeFrame_adlA (s : State) : (closeFrame s).adlA = s.adlA := by
  simp [closeFrame, emitBlock_eq]
@[simp] theorem closeFrame_adlB (s : State) : (closeFrame s).adlB = s.adlB := by
  simp [closeFrame, emitBlock_eq]
@[simp] theorem closeFrame_frmOpen (s : State) : (closeFrame s).frmOpen = false := by
  simp [closeFrame, emitBlock_eq]
@[simp] theorem closeFrame_frmCount (s : State) : (closeFrame s).frmCount = 0 := by
  simp [closeFrame, emitBlock_eq]
@[simp] theorem closeFrame_frmBuf (s : State) : (closeFrame s).frmBuf = s.frmBuf := by
  simp [closeFrame, emitBlock_eq]
@[simp] theorem closeFrame_frmA (s : State) : (closeFrame s).frmA = s.frmA := by
  simp [closeFrame, emitBlock_eq]
@[simp] theorem closeFrame_frmB (s : State) : (closeFrame s).frmB = s.frmB := by
  simp [closeFrame, emitBlock_eq]
@[simp] theorem closeFrame_err (s : State) : (closeFrame s).err = s.err := by
  simp [closeFrame, emitBlock_eq]
@[simp] theorem closeFrame_errCode (s : State) : (closeFrame s).errCode = s.errCode := by
  simp [closeFrame, emitBlock_eq]
@[simp] theorem closeFrame_emitQ (s : State) : (closeFrame s).emitQ = 
    s.emitQ ++ (block true (bufTake s s.frmCount.toNat) ++ be32 (joinHalves s.frmB s.frmA)) := by
  simp [closeFrame, emitBlock_eq]
@[simp] theorem closeFrame_outFifo (s : State) : (closeFrame s).outFifo = s.outFifo := by
  simp [closeFrame, emitBlock_eq]
@[simp] theorem closeFrame_env (s : State) : (closeFrame s).env = s.env := by
  simp [closeFrame, emitBlock_eq]
@[simp] theorem closeFrame_crcSeen (s : State) : (closeFrame s).ghost.crcSeen = s.ghost.crcSeen := by
  simp [closeFrame, emitBlock_eq]
@[simp] theorem closeFrame_adlSeen (s : State) : (closeFrame s).ghost.adlSeen = s.ghost.adlSeen := by
  simp [closeFrame, emitBlock_eq]
@[simp] theorem closeFrame_frmSeen (s : State) : (closeFrame s).ghost.frmSeen = none := by
  simp [closeFrame, emitBlock_eq]
@[simp] theorem closeFrame_outLog (s : State) : (closeFrame s).ghost.outLog = 
    s.ghost.outLog ++ (block true (bufTake s s.frmCount.toNat) ++ be32 (joinHalves s.frmB s.frmA)) := by
  simp [closeFrame, emitBlock_eq]

end Sys2Proof.Machine
end

