-- ==== Sys2Proof/Laws/Meanings.lean ====
section
/-! SUPPORT. What each command can do, said once: the next state of an unlocked command, and an inversion lemma over all
seven that the invariants and the laws cite. -/

namespace Sys2Proof.Machine

/-- While ERR = 1 every command is ignored (60_exceptions.md R175). -/
theorem exec_locked {s : State} (h : s.err = true) (i : Instr) : exec i s = .next s := by
  cases i <;> exact unlessLocked_locked h _

theorem exec_crcInit {s : State} (h : s.err = false) :
    exec .crcInit s = .next ((s.setCrcState crcOnes).setGhost { s.ghost with crcSeen := [] }) :=
  unlessLocked_unlocked h _

theorem exec_crcByte {s : State} (h : s.err = false) (d : Byte) :
    exec (.crcByte d) s = .next ((s.setCrcState (crcUpdate8 s.crcState d)).setGhost
      { s.ghost with crcSeen := s.ghost.crcSeen ++ [d] }) :=
  unlessLocked_unlocked h _

theorem exec_adlInit {s : State} (h : s.err = false) :
    exec .adlInit s = .next ((s.setAdl adlInitial).setGhost { s.ghost with adlSeen := [] }) :=
  unlessLocked_unlocked h _

theorem exec_adlByte {s : State} (h : s.err = false) (d : Byte) :
    exec (.adlByte d) s = .next ((s.setAdl (adlUpdate (s.adlA, s.adlB) d)).setGhost
      { s.ghost with adlSeen := s.ghost.adlSeen ++ [d] }) :=
  unlessLocked_unlocked h _

theorem exec_frmStart_closed {s : State} (h : s.err = false) (ho : s.frmOpen = false) :
    exec .frmStart s = .next (openFrame s) := by
  simp [exec, execFrmStart, unlessLocked_unlocked h, ho]

theorem exec_frmStart_open {s : State} (h : s.err = false) (ho : s.frmOpen = true) :
    exec .frmStart s = .next (raiseError .frmAlreadyOpen s) := by
  simp [exec, execFrmStart, unlessLocked_unlocked h, ho]

theorem exec_frmByte_open {s : State} (h : s.err = false) (ho : s.frmOpen = true) (hc : s.frmCount.toNat ≤ window)
    (d : Byte) : exec (.frmByte d) s = .next (storeByte d (flushFull s)) := by
  simp [exec, execFrmByte, unlessLocked_unlocked h, ho, withinBuffer_next hc]

theorem exec_frmByte_closed {s : State} (h : s.err = false) (ho : s.frmOpen = false) (d : Byte) :
    exec (.frmByte d) s = .next (raiseError .frmNotOpen s) := by
  simp [exec, execFrmByte, unlessLocked_unlocked h, ho]

theorem exec_frmEnd_open {s : State} (h : s.err = false) (ho : s.frmOpen = true) (hc : s.frmCount.toNat ≤ window) :
    exec .frmEnd s = .next (closeFrame s) := by
  simp [exec, execFrmEnd, unlessLocked_unlocked h, ho, withinBuffer_next hc]

theorem exec_frmEnd_closed {s : State} (h : s.err = false) (ho : s.frmOpen = false) :
    exec .frmEnd s = .next (raiseError .frmNotOpen s) := by
  simp [exec, execFrmEnd, unlessLocked_unlocked h, ho]

/-- Everything an unlocked command that answers a next state can have done. -/
inductive ExecCase (s : State) : Instr → State → Prop where
  | crcInit : ExecCase s .crcInit ((s.setCrcState crcOnes).setGhost { s.ghost with crcSeen := [] })
  | crcByte (d : Byte) : ExecCase s (.crcByte d)
      ((s.setCrcState (crcUpdate8 s.crcState d)).setGhost { s.ghost with crcSeen := s.ghost.crcSeen ++ [d] })
  | adlInit : ExecCase s .adlInit ((s.setAdl adlInitial).setGhost { s.ghost with adlSeen := [] })
  | adlByte (d : Byte) : ExecCase s (.adlByte d)
      ((s.setAdl (adlUpdate (s.adlA, s.adlB) d)).setGhost { s.ghost with adlSeen := s.ghost.adlSeen ++ [d] })
  | frmStart (ho : s.frmOpen = false) : ExecCase s .frmStart (openFrame s)
  | frmStartFails (ho : s.frmOpen = true) : ExecCase s .frmStart (raiseError .frmAlreadyOpen s)
  | frmByte (d : Byte) (ho : s.frmOpen = true) (hc : s.frmCount.toNat ≤ window) :
      ExecCase s (.frmByte d) (storeByte d (flushFull s))
  | frmByteFails (d : Byte) (ho : s.frmOpen = false) : ExecCase s (.frmByte d) (raiseError .frmNotOpen s)
  | frmEnd (ho : s.frmOpen = true) (hc : s.frmCount.toNat ≤ window) : ExecCase s .frmEnd (closeFrame s)
  | frmEndFails (ho : s.frmOpen = false) : ExecCase s .frmEnd (raiseError .frmNotOpen s)

theorem exec_cases {s t : State} {i : Instr} (h : s.err = false) (hx : exec i s = .next t) : ExecCase s i t := by
  cases i with
  | crcInit => rw [exec_crcInit h] at hx; cases hx; exact .crcInit
  | crcByte d => rw [exec_crcByte h] at hx; cases hx; exact .crcByte d
  | adlInit => rw [exec_adlInit h] at hx; cases hx; exact .adlInit
  | adlByte d => rw [exec_adlByte h] at hx; cases hx; exact .adlByte d
  | frmStart =>
    cases ho : s.frmOpen with
    | false => rw [exec_frmStart_closed h ho] at hx; cases hx; exact .frmStart ho
    | true => rw [exec_frmStart_open h ho] at hx; cases hx; exact .frmStartFails ho
  | frmByte d =>
    cases ho : s.frmOpen with
    | false => rw [exec_frmByte_closed h ho] at hx; cases hx; exact .frmByteFails d ho
    | true =>
      simp only [exec, execFrmByte, unlessLocked_unlocked h, ho, if_true] at hx
      obtain ⟨hc, rfl⟩ := withinBuffer_cases hx
      exact .frmByte d ho hc
  | frmEnd =>
    cases ho : s.frmOpen with
    | false => rw [exec_frmEnd_closed h ho] at hx; cases hx; exact .frmEndFails ho
    | true =>
      simp only [exec, execFrmEnd, unlessLocked_unlocked h, ho, if_true] at hx
      obtain ⟨hc, rfl⟩ := withinBuffer_cases hx
      exact .frmEnd ho hc

end Sys2Proof.Machine
end

