-- ==== Sys2Proof/Laws/PerInstr.lean ====
section
/-! SUPPORT. What holds of every command as a term: RoundTrip, the decoder reads every command back from its word. -/

namespace Sys2Proof.Laws.RoundTrip

/-- The decoder reads the command back from the word the encoder gives it (30_encoding.md R82, R87). -/
def Statement (i : Instr) : Prop := decode (encode i) = .command i

theorem crcInit : Statement .crcInit := by simp [Statement, encode, decode, fieldsOf_packWord, decodeOp, decodeDataless]
theorem crcByte (d : Byte) : Statement (.crcByte d) := by
  simp [Statement, encode, decode, fieldsOf_packWord, decodeOp]
theorem adlInit : Statement .adlInit := by simp [Statement, encode, decode, fieldsOf_packWord, decodeOp, decodeDataless]
theorem adlByte (d : Byte) : Statement (.adlByte d) := by
  simp [Statement, encode, decode, fieldsOf_packWord, decodeOp]
theorem frmStart : Statement .frmStart := by simp [Statement, encode, decode, fieldsOf_packWord, decodeOp, decodeDataless]
theorem frmByte (d : Byte) : Statement (.frmByte d) := by
  simp [Statement, encode, decode, fieldsOf_packWord, decodeOp]
theorem frmEnd : Statement .frmEnd := by simp [Statement, encode, decode, fieldsOf_packWord, decodeOp, decodeDataless]

end Sys2Proof.Laws.RoundTrip
end

