-- ==== Sys2Proof/Laws/Run.lean ====
section
/-! SUPPORT. Sequences of commands, and the lengths of blocks and chunks. -/

namespace Sys2Proof.Machine

/-- A locked block ignores every sequence of commands (60_exceptions.md R175). -/
theorem execAll_locked {s : State} (h : s.err = true) (is : List Instr) : execAll is s = .next s := by
  induction is with
  | nil => rfl
  | cons i is ih => simp [execAll, exec_locked h, ih]

theorem execAll_append (is js : List Instr) (s : State) : execAll (is ++ js) s =
    match execAll is s with
    | .next t => execAll js t
    | .fault r => .fault r
    | .refused r => .refused r := by
  induction is generalizing s with
  | nil => rfl
  | cons i is ih =>
    simp only [List.cons_append, execAll]
    cases exec i s <;> simp [ih]

/-- A block is five header bytes and its raw bytes (42_framer.md R141). -/
@[simp] theorem block_length (f : Bool) (c : List Byte) : (block f c).length = 5 + c.length := by
  simp only [block, le16, List.length_append, List.length_cons, List.length_nil]

theorem blockCount_pos (n : Nat) : 1 ≤ blockCount n := by simp [blockCount]

theorem chunk_length (s : List Byte) (j : Nat) : (chunk s j).length = min window (s.length - window * j) := by
  simp [chunk]

end Sys2Proof.Machine
end

