-- ==== Sys2Proof/Laws/Step.lean ====
section
/-! SUPPORT. What a step can do, said once: a command step, an accepted access, a host move, and the step itself. -/

namespace Sys2Proof.Machine

/-- A register's word does not depend on the surroundings (10_state.md R30 to R34). -/
@[simp] theorem readReg_setEnv (r : Reg) (s : State) (e : Env) : readReg r (s.setEnv e) = readReg r s := by
  cases r <;> rfl

/-- A command step that answers a next state: ignored, failed by the decoder, or carried out (30_encoding.md R87). -/
theorem commandStep_cases {v : Word} {s t : State} (h : commandStep v s = .next t) :
    (s.err = true ∧ t = s)
    ∨ (s.err = false ∧ ∃ e, decode v = .rejected e ∧ t = raiseError e s)
    ∨ (s.err = false ∧ ∃ i, decode v = .command i ∧ exec i s = .next t) := by
  unfold commandStep at h
  split at h
  · rename_i he; cases h; exact .inl ⟨he, rfl⟩
  · rename_i he
    have he : s.err = false := by simpa using he
    split at h
    · rename_i i hd; exact .inr (.inr ⟨he, i, hd, h⟩)
    · rename_i e hd; cases h; exact .inr (.inl ⟨he, e, hd, rfl⟩)

/-- The state in which the next access has left the bus or the host: only the surroundings differ. -/
theorem nextAccess_setEnv {s s1 : State} {a : BusAccess} (h : nextAccess s = some (a, s1)) :
    ∃ e : Env, s1 = s.setEnv e ∧ e.moves = s.env.moves ∧ e.reads = s.env.reads ∧ e.taken = s.env.taken
      ∧ e.takenEarlier = s.env.takenEarlier ∧ e.outReady = s.env.outReady := by
  unfold nextAccess at h
  split at h <;> simp at h
  · obtain ⟨-, rfl⟩ := h; exact ⟨_, rfl, rfl, rfl, rfl, rfl, rfl⟩
  · obtain ⟨-, rfl⟩ := h; exact ⟨_, rfl, rfl, rfl, rfl, rfl, rfl⟩

/-- A host move that answers a next state: nothing to issue, the access waits, or it is accepted with EMIT_Q empty
(20_memory.md R57, R58, R60). -/
theorem hostMove_cases {s t : State} (h : hostMove s = .next t) :
    (nextAccess s = none ∧ t = s)
    ∨ ∃ a s1 r, nextAccess s = some (a, s1) ∧ accessTarget a = .ok r ∧
      ((s.emitQ ≠ [] ∧ t = s1.setEnv { s1.env with bus := some a })
       ∨ (s.emitQ = [] ∧ a.op = .read ∧ t = recordRead (readReg r s1) s1)
       ∨ (s.emitQ = [] ∧ (∃ v, a.op = .write v) ∧ r ≠ .cmd ∧ t = s1)
       ∨ (s.emitQ = [] ∧ ∃ v, a.op = .write v ∧ r = .cmd ∧ commandStep v s1 = .next t)) := by
  unfold hostMove at h
  split at h
  · rename_i hn; cases h; exact .inl ⟨hn, rfl⟩
  · rename_i a s1 hn
    obtain ⟨e, rfl, -⟩ := nextAccess_setEnv hn
    split at h
    · cases h
    · rename_i r ht
      refine .inr ⟨a, _, r, hn, ht, ?_⟩
      split at h
      · rename_i hq
        have hq : s.emitQ = [] := by simpa using hq
        unfold performAccess at h
        split at h
        · rename_i ho; cases h; exact .inr (.inl ⟨hq, ho, rfl⟩)
        · rename_i v ho; exact .inr (.inr (.inr ⟨hq, v, ho, rfl, h⟩))
        all_goals rename_i v ho; cases h; exact .inr (.inr (.inl ⟨hq, ⟨v, ho⟩, by decide, rfl⟩))
      · rename_i hq; cases h; exact .inl ⟨by simpa using hq, rfl⟩

theorem Env.moves_tail_nil {e : Env} (h : e.moves = []) : { e with moves := e.moves.tail } = e := by
  cases e; simp_all

/-- The agent that moves and the state it moves from (00_scope.md R12; log 1 for the schedule that is used up). -/
inductive StepCase (s t : State) : Prop where
  | host (s0 : State) (hs : s0 = s.setEnv { s.env with moves := s.env.moves.tail }) (h : hostMove s0 = .next t)
  | transfer (s0 : State) (hs : s0 = s.setEnv { s.env with moves := s.env.moves.tail }) (h : t = transferStep s0)
  | sink (s0 : State) (hs : s0 = s.setEnv { s.env with moves := s.env.moves.tail }) (h : t = sinkStep s0)
  | reset (rest : List Move) (hm : s.env.moves = .reset :: rest)
      (h : t = resetEvent (s.setEnv { s.env with moves := rest }))
  | idle (hm : s.env.moves = []) (h : t = s)

/-- Everything a step that answers a next state can have done. -/
theorem step_cases {s t : State} (h : step s = .next t) : StepCase s t := by
  unfold step stepMove at h
  split at h
  · rename_i hm
    have hs : s = s.setEnv { s.env with moves := s.env.moves.tail } := by
      rw [Env.moves_tail_nil hm]; rfl
    unfold idleMove at h
    split at h
    · cases h; exact .transfer s hs rfl
    · split at h
      · exact .host s hs h
      · split at h
        · cases h; exact .sink s hs rfl
        · split at h
          · cases h; exact .idle hm rfl
          · cases h
  · rename_i m rest hm
    cases m with
    | host => exact .host _ (by rw [hm]; rfl) h
    | transfer => cases h; exact .transfer _ (by rw [hm]; rfl) rfl
    | sink => cases h; exact .sink _ (by rw [hm]; rfl) rfl
    | reset => cases h; exact .reset rest hm rfl

end Sys2Proof.Machine
end

