-- ==== Sys2Proof/Tests/Slice0.lean ====
section
/-! SUPPORT. Tests with expected values from spec/ (95_test_vectors.md and the examples of the rules), and for each statement
that has hypotheses a witness that meets all of them together. -/

namespace Sys2Proof.Tests

open Sys2Proof Sys2Proof.Machine

/-! ## Decoding: words written out from 30_encoding.md R80, R82 (RSV 16 bits, OP 8 bits, DATA 8 bits) -/

theorem test_decode_crcInit : decode 0b00000000000000000000000100000000 = .command .crcInit := by decide
theorem test_decode_crcByte : decode 0b00000000000000000000001000110001 = .command (.crcByte 0x31) := by decide
theorem test_decode_adlInit : decode 0b00000000000000000001000100000000 = .command .adlInit := by decide
theorem test_decode_adlByte : decode 0b00000000000000000001001011111110 = .command (.adlByte 0xFE) := by decide
theorem test_decode_frmStart : decode 0b00000000000000000010000100000000 = .command .frmStart := by decide
theorem test_decode_frmByte : decode 0b00000000000000000010001010000001 = .command (.frmByte 0x81) := by decide
theorem test_decode_frmEnd : decode 0b00000000000000000010001100000000 = .command .frmEnd := by decide

/-- The rows of spec/opcode_table.json with their operand bits zero. -/
theorem test_decodeTableWord :
    [0x100, 0x200, 0x1100, 0x1200, 0x2100, 0x2200, 0x2300].map (decodeTableWord 32)
      = [some .crcInit, some (.crcByte 0), some .adlInit, some (.adlByte 0), some .frmStart, some (.frmByte 0),
         some .frmEnd] := by decide

/-! ## Ill-formed words: one for each check of WellFormed.lean, with the code of R84 to R86 -/

theorem test_rsvZero_refuses : (fieldsOf 0x00010200).rsvZero = false ∧ (fieldsOf 0x00010200).wellFormed = false
    ∧ decode 0x00010200 = .rejected .reservedNonzero := by decide
theorem test_opAssigned_refuses : (fieldsOf 0x00000300).opAssigned = false ∧ (fieldsOf 0x00000300).wellFormed = false
    ∧ decode 0x00000300 = .rejected .illegalOpcode := by decide
theorem test_dataLegal_refuses : (fieldsOf 0x00002101).dataLegal = false ∧ (fieldsOf 0x00002101).wellFormed = false
    ∧ decode 0x00002101 = .rejected .reservedNonzero := by decide

/-- An operand outside 0..255, a character that must be escaped, and READ of CMD are refused (R88, R89). -/
theorem test_assembler_refuses : (Stmt.byte .crc (.dec 256)).wellFormed = false
    ∧ (Stmt.byte .frm (.chr 39)).wellFormed = false ∧ (Stmt.str .adl [.chr 92]).wellFormed = false
    ∧ (Stmt.read .cmd).wellFormed = false := by decide

/-! ## The assembler's text -/

theorem test_assemble_P4 : assemble
    "        FRM.START                ; 0x00002100   emits 78 01\n        FRM.BYTE 'A'\nFRM.START\nFRM.END\nCRC.BYTE 0x31 ; ignored\nREAD STATUS\nREAD CRC_RESULT"
      = some [busWrite .cmd 0x2100, busWrite .cmd 0x2241, busWrite .cmd 0x2100, busWrite .cmd 0x2300,
              busWrite .cmd 0x0231, busRead .status, busRead .crcResult] := by decide +kernel
theorem test_assemble_pseudo : assemble "ADL.OF \"a\\x00\"\nFRM.BYTES 1, 0xFF\nFRM.FRAME \"\"\nREAD ADLER_RESULT"
      = some [busWrite .cmd 0x1100, busWrite .cmd 0x1261, busWrite .cmd 0x1200, busWrite .cmd 0x2201,
              busWrite .cmd 0x22FF, busWrite .cmd 0x2100, busWrite .cmd 0x2300, busRead .adlerResult] := by
  decide +kernel
/-- The last text is refused by the model's choice (log 17). -/
theorem test_assemble_refuses : assemble "CRC.BYTE 256" = none ∧ assemble "crc.init" = none
    ∧ assemble "CRC.INIT 1" = none ∧ assemble "FRM.INIT" = none ∧ assemble "READ CMD" = none
    ∧ assemble "CRC.BYTE'1'" = none := by decide +kernel

/-! ## The checksum functions and the frame: 95_test_vectors.md sections 3 to 5 -/

theorem test_crcUpdate8 : crcUpdate8 0 0x01 = 0x77073096 ∧ crcUpdate8 0 0x80 = 0xEDB88320
    ∧ crcUpdate8 0xFFFFFFFF 0x00 = 0x2DFD1072 ∧ crcUpdate8 0xFFFFFFFF 0xFF = 0x00FFFFFF := by decide +kernel
theorem test_adlUpdate : adlUpdate (65520, 0) 0x00 = (65520, 65520) ∧ adlUpdate (65266, 0) 0xFF = (0, 0) := by
  decide +kernel
theorem test_crc32_IEND : crc32 [0x49, 0x45, 0x4E, 0x44] = 0xAE426082 := by decide +kernel
theorem test_adler32_abc : adler32 [0x61, 0x62, 0x63] = 0x024D0127 := by decide +kernel
theorem test_frame_hi : frame [0x68, 0x69] = [0x78, 0x01, 0x01, 0x02, 0x00, 0xFD, 0xFF, 0x68, 0x69, 0x01, 0x3B, 0x00, 0xD2] := by
  decide +kernel
theorem test_unframe_bad_trailer : unframe [0x78, 0x01, 0x01, 0x00, 0x00, 0xFF, 0xFF, 0x00, 0x00, 0x00, 0x02] = none := by
  decide +kernel

/-! ## Small states -/

/-- The next state, where there is one. -/
def nextOf : Result → Option State
  | .next t => some t
  | .fault _ => none
  | .refused _ => none

/-- Why a step is refused, where it is. -/
def refusalOf : Result → Option Refusal
  | .refused r => some r
  | .next _ => none
  | .fault _ => none

/-- Reset, then FRM.START, with the header already taken: an open frame with no byte yet. -/
def opened : State :=
  { State.reset with
    frmOpen := true, frmA := 1
    ghost := { State.reset.ghost with frmSeen := some [], outLog := [0x78, 0x01] }
    env := { State.reset.env with taken := [0x78, 0x01] } }

/-- V-F13: then FRM.BYTE 'A'. -/
def openA : State :=
  { opened with
    frmCount := 1, frmBuf := [(0, 0x41)], frmA := 0x42, frmB := 0x42
    ghost := { opened.ghost with frmSeen := some [0x41] } }

/-- An open frame with an arbitrary FRM_COUNT. -/
def openAt (n : Half) : State := { opened with frmCount := n }

/-- V-E1: a block locked with code 4, its frame open. -/
def locked : State := { opened with err := true, errCode := 0x4 }

/-- A state in which the host moves next and makes the access a. -/
def hostTurn (s : State) (a : BusAccess) : State :=
  { s with env := { s.env with moves := [.host], hostQ := [a] } }

/-- A state whose OUT_FIFO is full and that has one more byte to emit. -/
def full : State := { opened with emitQ := [0x01], outFifo := List.replicate Config.outDepth 0xAA }

/-! ## The commands -/

theorem test_crcInit : (nextOf (exec .crcInit { State.reset with crcState := 0x174841BC })).map
    (fun t => (t.crcState, readReg .crcResult t)) = some (0xFFFFFFFF, 0x00000000) := by decide +kernel
theorem test_crcByte : (nextOf (exec (.crcByte 0x31) State.reset)).map
    (fun t => (t.crcState, readReg .crcResult t)) = some (0x7C231048, 0x83DCEFB7) := by decide +kernel
/-- V-C7. -/
theorem test_crcByte_zero : (nextOf (exec (.crcByte 0x00) { State.reset with crcState := 0 })).map
    (readReg .crcResult) = some 0xFFFFFFFF := by decide +kernel
theorem test_adlInit : (nextOf (exec .adlInit { openA with adlA := 210, adlB := 315 })).map
    (fun t => (readReg .adlerResult t, t.frmA, t.frmB)) = some (0x00000001, 0x42, 0x42) := by decide +kernel
theorem test_adlByte : (nextOf (exec (.adlByte 0x61) State.reset)).map
    (readReg .adlerResult) = some 0x00620062 := by decide +kernel
theorem test_adlByte_wraps : (nextOf (exec (.adlByte 0xFF) { State.reset with adlA := 65520, adlB := 65520 })).map
    (fun t => (t.adlA, t.adlB)) = some (254, 253) := by decide +kernel
/-- V-F12. -/
theorem test_frmStart : (nextOf (exec .frmStart State.reset)).map
    (fun t => (t.emitQ, readReg .status t)) = some ([0x78, 0x01], 0x00000001) := by decide +kernel
/-- V-E1. -/
theorem test_frmStart_fails : (nextOf (exec .frmStart opened)).map
    (fun t => (t.emitQ, readReg .status t)) = some ([], 0x00000043) := by decide +kernel
/-- V-F13. -/
theorem test_frmByte : nextOf (exec (.frmByte 0x41) opened) = some openA := by decide +kernel
/-- 95_test_vectors.md section 6.1. -/
theorem test_frmByte_fails : (nextOf (exec (.frmByte 0x00) State.reset)).map (readReg .status) = some 0x00000032 := by
  decide +kernel
/-- 42_framer.md R147's example. -/
theorem test_frmEnd : (nextOf (exec .frmEnd openA)).map (fun t => (t.emitQ, readReg .status t))
    = some ([0x01, 0x01, 0x00, 0xFE, 0xFF, 0x41, 0x00, 0x42, 0x00, 0x42], 0x00000000) := by decide +kernel
/-- 42_framer.md R147's first corner case. -/
theorem test_frmEnd_empty : (nextOf (exec .frmEnd opened)).map (·.emitQ)
    = some [0x01, 0x00, 0x00, 0xFF, 0xFF, 0x00, 0x00, 0x00, 0x01] := by decide +kernel

/-! ## Errors, bus and reset: 95_test_vectors.md section 6 -/

/-- V-E2: DATA is checked before the framer's state. -/
theorem test_error_order : (nextOf (commandStep 0x00002101 openA)).map (readReg .status) = some 0x00010023 := by
  decide +kernel
/-- P4: while locked a command word is ignored. -/
theorem test_lock : nextOf (commandStep 0x00002300 locked) = some locked := by decide +kernel
/-- V-B3: a write to STATUS is ignored. -/
theorem test_status_write : (nextOf (step (hostTurn opened (busWrite .status 0)))).map (readReg .status) = some 1 := by
  decide +kernel
/-- V-B1, for ADLER_RESULT. -/
theorem test_read : (nextOf (step (hostTurn State.reset (busRead .adlerResult)))).map (·.env.reads) = some [1] := by
  decide +kernel
/-- V-B8. -/
theorem test_bad_accesses : refusalOf (step (hostTurn State.reset { offset := 4, size := 2, op := .read })) = some .accessNotWord
    ∧ refusalOf (step (hostTurn State.reset { offset := 2, size := 4, op := .read })) = some .accessMisaligned := by
  decide +kernel
/-- V-B5, V-B6: reset gives the reset registers, and the sink keeps what it has taken. -/
theorem test_reset : (nextOf (step { locked with emitQ := [0x01], env := { locked.env with moves := [.reset] } })).map
    (fun t => (readReg .status t, t.emitQ, t.observed)) = some (0, [], ([], [0x78, 0x01], false)) := by decide +kernel
/-- A placed word runs next, from reset and with output waiting. -/
theorem test_withFetchWord : (nextOf (step (State.reset.withFetchWord 32 0x2100))).map (·.frmOpen) = some true
    ∧ (nextOf (step ({ opened with emitQ := [1] }.withFetchWord 32 0x2241))).map (·.frmCount) = some 1 := by
  decide +kernel

/-! ## Witnesses: for each statement with hypotheses, states and operands that meet them all -/

theorem witness_MalformedWordsAreRejected : (1 : Half) ≠ 0 ∧ (0xFFFF : Half) ≠ 0
    ∧ (0x00 : Byte) ∉ ([0x01, 0x02, 0x11, 0x12, 0x21, 0x22, 0x23] : List Byte)
    ∧ (0xFF : Byte) ∉ ([0x01, 0x02, 0x11, 0x12, 0x21, 0x22, 0x23] : List Byte)
    ∧ (0x01 : Byte) ∈ ([0x01, 0x11, 0x21, 0x23] : List Byte) ∧ (0x23 : Byte) ∈ ([0x01, 0x11, 0x21, 0x23] : List Byte)
    ∧ (0x01 : Byte) ≠ 0 := by decide

theorem witness_CrcStepFeedsBackTheBitShiftedOut : (0 : Nat) < 31 ∧ (30 : Nat) < 31 := by decide

theorem witness_AdlerUpdateIsOneConditionalSubtraction :
    (65520 : Half).toNat < 65521 ∧ (0 : Half).toNat < 65521 := by decide

/-- CrcInit, CrcByte, AdlInit, AdlByte: an unlocked state, words with RSV or DATA not 0, and a locked state. -/
theorem witness_UnitCommands : State.reset.err = false ∧ openA.err = false ∧ locked.err = true
    ∧ (((1 : Half) ≠ 0) ∨ (0 : Byte) ≠ 0) ∧ (((0 : Half) ≠ 0) ∨ (1 : Byte) ≠ 0) := by decide

/-- AdlByte's two corner cases. -/
theorem witness_AdlByteFeedsOneByte : State.reset.adlA.toNat < 65521
    ∧ ({ State.reset with adlA := 65520 } : State).adlA.toNat + (0x01 : Byte).toNat = 65521 := by decide

theorem witness_FrmStartOpensAFrame : (State.reset.err = false ∧ State.reset.frmOpen = false)
    ∧ (opened.err = false ∧ opened.frmOpen = true) ∧ locked.err = true := by decide

/-- FrmByte and FrmEnd, at the ends of FRM_COUNT's range. -/
theorem witness_FrmByteCollectsOneByte :
    ((openAt 0x7FFF).err = false ∧ (openAt 0x7FFF).frmOpen = true ∧ (openAt 0x7FFF).frmCount.toNat < 32768)
    ∧ ((openAt 0x8000).err = false ∧ (openAt 0x8000).frmOpen = true ∧ (openAt 0x8000).frmCount.toNat = 32768)
    ∧ ((openAt 0).frmOpen = true ∧ (openAt 0).frmCount.toNat ≤ 32768)
    ∧ (State.reset.err = false ∧ State.reset.frmOpen = false) := by decide

theorem witness_FrmEndClosesTheFrame :
    ((openAt 0x8000).err = false ∧ (openAt 0x8000).frmOpen = true ∧ (openAt 0x8000).frmCount.toNat ≤ 32768)
    ∧ (openA.err = false ∧ openA.frmOpen = true ∧ openA.frmCount.toNat ≤ 32768)
    ∧ (State.reset.err = false ∧ State.reset.frmOpen = false) := by decide

theorem witness_BufferIndexBeyondCapacityStops : (openAt 0x8001).err = false ∧ (openAt 0x8001).frmOpen = true
    ∧ 32768 < (openAt 0x8001).frmCount.toNat := by decide

/-- Each clause: RSV; OP; DATA; the two checks of the framer's state; none. -/
theorem witness_FirstFailingCheckDecidesTheCode :
    (State.reset.err = false ∧ State.reset.frmCount.toNat ≤ 32768 ∧ State.reset.frmOpen = false)
    ∧ (opened.err = false ∧ opened.frmCount.toNat ≤ 32768 ∧ opened.frmOpen = true)
    ∧ (fieldsOf 0x00012300).rsvZero = false
    ∧ ((fieldsOf 0x0000FF00).rsvZero = true ∧ (fieldsOf 0x0000FF00).opAssigned = false)
    ∧ ((fieldsOf 0x00002305).rsvZero = true ∧ (fieldsOf 0x00002305).opAssigned = true
        ∧ (fieldsOf 0x00002305).dataLegal = false)
    ∧ ((fieldsOf 0x00002200).wellFormed = true ∧ (fieldsOf 0x00002200).op ∈ ([0x22, 0x23] : List Byte))
    ∧ ((fieldsOf 0x00002100).wellFormed = true ∧ (fieldsOf 0x00002100).op = 0x21)
    ∧ ((fieldsOf 0x00000100).wellFormed = true ∧ (fieldsOf 0x00000100).op ∉ ([0x22, 0x23] : List Byte)
        ∧ (fieldsOf 0x00000100).op ≠ 0x21) := by decide

theorem witness_ErrorsArePrecise : ∃ s t : State, step s = .next t ∧ s.err = false ∧ t.err = true :=
  ⟨hostTurn State.reset (busWrite .cmd 0), _, rfl, rfl, rfl⟩

theorem witness_LockIgnoresEveryCommand : locked.err = true := by decide

/-- LockIgnoresEveryCommand too: a next state without reset, a reset, and a fault. -/
theorem witness_OnlyResetLeavesTheLock :
    (∃ s : State, s.err = true ∧ s.env.moves.head? = some .reset)
    ∧ (∃ t, locked.err = true ∧ step (hostTurn locked (busWrite .cmd 0x2300)) = .next t
      ∧ (hostTurn locked (busWrite .cmd 0x2300)).NoReset)
    ∧ ∃ s r, s.err = true ∧ step s = .fault r := by
  refine ⟨⟨{ locked with env := { locked.env with moves := [.reset] } }, rfl, rfl⟩, ⟨_, rfl, rfl, by decide⟩, { full with err := true, env := { full.env with outReady := false } }, .hang, rfl, ?_⟩
  simp [step, stepMove, idleMove, transferEnabled, hostReady, full, opened, State.reset]

/-- Both sides of the equivalence hold together. -/
theorem witness_AccessReachesExactlyFourWords :
    accessTarget (accessAtAddress (Config.base + 12) 4 .read) = .ok .adlerResult := by
  have : accessAtAddress (Config.base + 12) 4 .read = { offset := 12, size := 4, op := .read } := by
    simp [accessAtAddress]
  rw [this]; rfl

theorem hostTurn_holds (s : State) (a : BusAccess) (h : s.env.bus = none) :
    ∃ s1, (hostTurn s a).HostTurn a s1 :=
  ⟨_, .inl ⟨[], rfl, by simp [nextAccess, hostTurn, h]; rfl⟩⟩

theorem witness_AccessOutsideTheInterfaceIsRefused :
    (∃ s s1 : State, s.HostTurn { offset := 4, size := 2, op := .read } s1)
    ∧ (∃ s s1 : State, s.HostTurn { offset := 16, size := 4, op := .read } s1)
    ∧ (16 : Int) ∉ ([0x0, 0x4, 0x8, 0xC] : List Int) ∧ (-4 : Int) ∉ ([0x0, 0x4, 0x8, 0xC] : List Int) :=
  ⟨⟨_, hostTurn_holds State.reset _ rfl⟩, ⟨_, hostTurn_holds full _ rfl⟩, by decide, by decide⟩

theorem witness_BusStallsWhileOutputWaits : ∃ (s s1 : State) (a : BusAccess) (r : Reg),
    s.HostTurn a s1 ∧ accessTarget a = .ok r ∧ s.emitQ ≠ [] :=
  let ⟨s1, h⟩ := hostTurn_holds full (busRead .status) rfl
  ⟨_, s1, _, .status, h, rfl, by decide⟩

/-- With EMIT_Q empty and with output waiting. -/
theorem witness_BusReadReturnsTheRegister :
    (∃ s s1 : State, s.HostTurn (busRead .status) s1 ∧ s.emitQ = [])
    ∧ (∃ s s1 : State, s.HostTurn (busRead .cmd) s1 ∧ s.emitQ ≠ [])
    ∧ accessTarget (busRead .status) = .ok .status ∧ accessTarget (busRead .cmd) = .ok .cmd :=
  ⟨(hostTurn_holds openA (busRead .status) rfl).elim fun s1 h => ⟨_, s1, h, rfl⟩,
   (hostTurn_holds full (busRead .cmd) rfl).elim fun s1 h => ⟨_, s1, h, by decide⟩, rfl, rfl⟩

/-- A write to CMD, one that waits, and a write to CRC_RESULT that nothing is scheduled before. -/
theorem witness_BusWriteActsOnlyOnCmd :
    (∃ s s1 : State, s.HostTurn (busWrite .cmd 0x100) s1 ∧ s.emitQ ≠ [] ∧ accessTarget (busWrite .cmd 0x100) = .ok .cmd)
    ∧ (∃ s s1 : State, s.HostTurn (busWrite .cmd 0x100) s1 ∧ s.emitQ = [] ∧ accessTarget (busWrite .cmd 0x100) = .ok .cmd)
    ∧ (∃ s s1 : State, s.HostTurn (busWrite .crcResult 0x12345678) s1 ∧ s.emitQ = []
        ∧ accessTarget (busWrite .crcResult 0x12345678) = .ok .crcResult) :=
  ⟨(hostTurn_holds full (busWrite .cmd 0x100) rfl).elim fun s1 h => ⟨_, s1, h, by decide, rfl⟩,
   (hostTurn_holds openA (busWrite .cmd 0x100) rfl).elim fun s1 h => ⟨_, s1, h, rfl, rfl⟩,
   ⟨withProgram [busWrite .crcResult 0x12345678] State.reset, _, .inr ⟨rfl, rfl, rfl⟩, rfl, rfl⟩⟩

theorem witness_StepRunsTheDecodedCommand : ∃ (s s1 : State) (a : BusAccess) (v : Word) (i : Instr),
    s.HostTurn a s1 ∧ accessTarget a = .ok .cmd ∧ a.op = .write v ∧ s.emitQ = [] ∧ s.err = false
      ∧ decode v = .command i :=
  let ⟨s1, h⟩ := hostTurn_holds openA (busWrite .cmd 0x2300) rfl
  ⟨_, s1, _, 0x2300, .frmEnd, h, rfl, rfl, rfl, rfl, by decide⟩

theorem witness_PlacedWordRunsNext :
    State.reset.err = false ∧ State.reset.emitQ = [] ∧ decodeTableWord 32 0x22FF = some (.frmByte 0xFF) := by decide

theorem witness_ReadsSeeOnlyWholeCommands : ∃ s t : State, step s = .next t ∧ t.env.reads ≠ s.env.reads :=
  ⟨hostTurn openA (busRead .status), _, rfl, by decide⟩

theorem witness_StallHoldsTheRegisters : ∃ s t : State, step s = .next t ∧ s.emitQ ≠ [] ∧ s.NoReset :=
  ⟨hostTurn full (busRead .status), _, rfl, by decide, by decide⟩

/-- An empty FIFO with nothing scheduled, and a FIFO with room for one byte with the transfer scheduled. -/
theorem witness_TransferMovesOneByte :
    (∃ (s : State) (b : Byte) (q : List Byte), s.emitQ = b :: q ∧ s.outFifo.length < Config.outDepth
      ∧ s.env.moves = [])
    ∧ ∃ (s : State) (b : Byte) (q : List Byte), s.emitQ = b :: q ∧ s.outFifo.length + 1 = Config.outDepth
      ∧ s.env.moves.head? = some .transfer :=
  ⟨⟨{ opened with emitQ := [0x78, 0x01] }, _, _, rfl, by simp [opened, State.reset, Config.outDepth], rfl⟩,
   ⟨{ opened with emitQ := [0x78], outFifo := List.replicate Config.outDepthPred 0,
                  env := { opened.env with moves := [.transfer] } },
     _, _, rfl, by simp [Config.outDepth], rfl⟩⟩

theorem witness_SinkTakesTheFirstByte : (∃ s : State, s.outFifo = [0x78, 0x01] ∧ s.env.moves.head? = some .sink)
    ∧ ∃ s : State, s.outFifo = [] ∧ s.env.moves.head? = some .sink :=
  ⟨⟨{ opened with outFifo := [0x78, 0x01], env := { opened.env with moves := [.sink] } }, rfl, rfl⟩,
   ⟨{ opened with env := { opened.env with moves := [.sink] } }, rfl, rfl⟩⟩

theorem witness_OutputIsOnlyAppended : ∃ s t : State, step s = .next t ∧ s.NoReset ∧ t.emitQ ≠ [] :=
  ⟨hostTurn State.reset (busWrite .cmd 0x2100), _, rfl, by decide, by decide⟩

/-- The right side holds of a state, and so does the hang. -/
theorem witness_HangExactlyIfTheSinkHasStopped : ∃ s : State,
    (s.env.moves = [] ∧ s.emitQ ≠ [] ∧ Config.outDepth ≤ s.outFifo.length ∧ s.env.outReady = false)
    ∧ step s = .fault .hang := by
  refine ⟨{ full with env := { full.env with outReady := false } }, ⟨rfl, by decide, by simp [full], rfl⟩, ?_⟩
  simp [step, stepMove, idleMove, transferEnabled, hostReady, full, opened, State.reset]

theorem witness_ReadySinkDrainsTheOutput : full.env.moves = [] ∧ full.env.outReady = true
    ∧ full.outFifo.length ≤ Config.outDepth ∧ full.emitQ ≠ [] :=
  ⟨rfl, rfl, by simp [full], by decide⟩

theorem witness_ResetGivesTheResetValues :
    ({ locked with env := { locked.env with moves := [.reset, .host] } } : State).env.moves.head? = some .reset := rfl

/-- R36 holds of the open frame of V-F13. -/
theorem openA_inv : openA.Inv where
  adl_a := by decide
  adl_b := by decide
  closed := by decide
  opened _ := ⟨[0x41], rfl, {
    count_le := by decide, sum_a := by decide, sum_b := by decide, count_zero := by decide
    count_eq := by decide, adler_eq := by decide +kernel, buf_eq := by decide +kernel }⟩
  crc_eq := by decide +kernel
  adler_eq := by decide +kernel
  err_iff := by decide
  err_code := by decide
  out_log := by decide
  fifo_length := by simp [openA, Tests.opened, State.reset]
  buf_wf := by decide +kernel

theorem witness_EveryStepKeepsTheInvariants : ∃ s t : State, s.Inv ∧ step s = .next t :=
  ⟨openA, _, openA_inv, rfl⟩

/-- Two different states: with a frame open, bytes above FRM_COUNT and ghost state; with none open, the framer's sums too. -/
theorem witness_UnreadableStateCannotBeFelt :
    (∃ s t : State, s.AgreeOnReadable t ∧ s ≠ t ∧ s.frmOpen = true)
    ∧ ∃ s t : State, s.AgreeOnReadable t ∧ s ≠ t ∧ s.frmOpen = false := by
  refine ⟨⟨openA, { openA with frmBuf := [(0, 0x41), (7, 0x99)], ghost := State.reset.ghost }, ?_, by decide, rfl⟩,
    ⟨State.reset, { State.reset with frmA := 5, frmB := 6, frmBuf := [(3, 0x99)] }, ?_, by decide, rfl⟩⟩
  · constructor <;> try rfl
    · exact fun _ => ⟨rfl, rfl⟩
    · intro _ i hi
      have : i = 0 := by simpa [openA] using hi
      subst this; rfl
  · constructor <;> first | rfl | exact fun h => nomatch h

/-- CrcResultLaw, AdlerResultLaw: other units' commands mixed in, from a state with ERR = 0 and after a reset of a locked block. -/
theorem witness_ResultLaws : State.reset.err = false ∧ locked.err = true
    ∧ (Instr.crcInit ∉ [Instr.crcByte 0x61, .adlInit, .adlByte 0x62] ∧ ∃ t,
        execAll (.crcInit :: [.crcByte 0x61, .adlInit, .adlByte 0x62]) openA = .next t ∧ t.err = false)
    ∧ (Instr.adlInit ∉ [Instr.adlByte 0x61, .crcInit, .frmByte 0x62] ∧ ∃ t,
        execAll (.adlInit :: [.adlByte 0x61, .crcInit, .frmByte 0x62]) openA = .next t ∧ t.err = false)
    ∧ (∃ t, execAll [.crcByte 0x61, .adlInit] (resetEvent locked) = .next t ∧ t.err = false)
    ∧ ∃ t, execAll [.adlByte 0x61, .crcInit] (resetEvent locked) = .next t ∧ t.err = false :=
  ⟨rfl, rfl, ⟨by decide, _, rfl, rfl⟩, ⟨by decide, _, rfl, rfl⟩, ⟨_, rfl, rfl⟩, ⟨_, rfl, rfl⟩⟩

/-- FrameResultLaw, FramesFollowBackToBack, EmptyFrame. -/
theorem witness_FrameLaws : State.reset.err = false ∧ State.reset.frmOpen = false
    ∧ Instr.frmStart ∉ [Instr.frmByte 0x68, .adlInit, .frmByte 0x69]
    ∧ Instr.frmEnd ∉ [Instr.frmByte 0x68, .adlInit, .frmByte 0x69] := by decide

theorem witness_CommandsOfDifferentUnitsCommute : ∃ (s t u : State) (i j : Instr),
    unitOf i ≠ unitOf j ∧ exec i s = .next t ∧ exec j t = .next u ∧ u.err = false :=
  ⟨openA, _, _, .frmEnd, .adlByte 0x61, by decide, rfl, rfl, rfl⟩

theorem witness_ChunksPartitionTheInput : ([0x61] : List Byte) ≠ []
    ∧ 0 + 1 < blockCount (List.replicate 32769 (0 : Byte)).length := by
  rw [List.length_replicate]; decide

theorem witness_FrameLength : ([] : List Byte).length = 0 ∧ (List.replicate 32768 (0 : Byte)).length = 32768
    ∧ (List.replicate 32769 (0 : Byte)).length = 32769 :=
  ⟨rfl, List.length_replicate, List.length_replicate⟩

theorem witness_FullMultipleHasNoEmptyBlock : 1 ≤ 1 ∧ (List.replicate 32768 (0 : Byte)).length = 32768 * 1 :=
  ⟨Nat.le_refl 1, List.length_replicate⟩

/-- The ends of the ranges of numbers and of character codes, and what lies next to them. -/
theorem witness_StatementsMeanTheirAccesses : 255 ≤ 255 ∧ 255 < 256 ∧ Reg.status ≠ .cmd
    ∧ (32 ≤ 32 ∧ 32 ≤ 126 ∧ 32 ≠ 39 ∧ 32 ≠ 92) ∧ (32 ≤ 126 ∧ 126 ≤ 126 ∧ 126 ≠ 39 ∧ 126 ≠ 92)
    ∧ 31 < 32 ∧ 126 < 127
    ∧ (AsmUnit.adl, 0x1200) ∈ [(AsmUnit.crc, 0x200), (.adl, 0x1200), (.frm, 0x2200)] := by decide

theorem witness_PseudoInstructionsExpand :
    [StrItem.chr 97, .esc 255].map StrItem.value = [(0x61 : Byte), 0xFF].map some
    ∧ [AsmOperand.dec 0, .hex 255, .chr 65].map AsmOperand.value = [(0x00 : Byte), 0xFF, 0x41].map some
    ∧ (∃ x ∈ [StrItem.chr 97, .chr 34], x.value = none) ∧ (∃ x ∈ [AsmOperand.dec 0, .hex 256], x.value = none)
    ∧ (32 ≤ 126 ∧ 126 ≤ 126 ∧ 126 ≠ 34 ∧ 126 ≠ 92) ∧ 126 < 127 ∧ 255 ≤ 255 ∧ 255 < 256 := by decide

end Sys2Proof.Tests
end

section
/-! PROOFS. A placed word runs in the next step, and what no rule reads can be neither observed nor felt. -/

namespace Sys2Proof.Machine

/-! ## A placed word (notes/assumptions/10.md) -/

theorem decode_of_decodeTableWord {nbits w : Nat} {i : Instr} (h : decodeTableWord nbits w = some i) :
    decode (tableWord nbits w) = .command i := by
  unfold decodeTableWord at h
  split at h
  · rename_i j hd
    cases h
    exact hd
  · cases h

theorem drainOutput_of_emitQ_nil {s : State} (h : s.emitQ = []) : drainOutput s = s := by
  simp [drainOutput, h]

theorem commandStep_command {s : State} {v : Word} {i : Instr} (he : s.err = false) (hd : decode v = .command i) :
    commandStep v s = exec i s := by
  simp [commandStep, he, hd]

theorem nextAccess_of_bus {s : State} {a : BusAccess} (h : s.env.bus = some a) :
    nextAccess s = some (a, s.setEnv { s.env with bus := none }) := by
  simp [nextAccess, h]

/-- A write of v to CMD that stands on the bus is CommandStep(v) once EMIT_Q is empty (20_memory.md R57, R60). -/
theorem hostMove_commandWrite {s : State} {v : Word} (hb : s.env.bus = some (busWrite .cmd v)) (hq : s.emitQ = []) :
    hostMove s = commandStep v (s.setEnv { s.env with bus := none }) := by
  have target : accessTarget (busWrite .cmd v) = .ok .cmd := rfl
  simp only [hostMove, nextAccess_of_bus hb, target, State.setEnv_emitQ, hq, List.isEmpty_nil, if_true]
  rfl

/-- Settles O29: the placed write is the access the host's next move performs, and the word decodes to i. -/
theorem placedWordRunsNext : Obligations.PlacedWordRunsNext := by
  intro s w i he hq hw
  calc step (s.withFetchWord 32 w)
    _ = hostMove (s.setEnv { s.env with
          bus := some (busWrite .cmd (tableWord 32 w)), hostQ := s.env.bus.toList ++ s.env.hostQ }) := by
        simp only [State.withFetchWord, placeCommand, drainOutput_of_emitQ_nil hq]
        rfl
    _ = commandStep (tableWord 32 w) (s.setEnv { s.env with
          bus := none, hostQ := s.env.bus.toList ++ s.env.hostQ }) := hostMove_commandWrite rfl hq
    _ = exec i _ := commandStep_command he (decode_of_decodeTableWord hw)

/-! ## What no rule reads (93_implementation_defined.md U1, U2; 10_state.md R35)

One rule for each update of State and each shared operation: it takes states that agree to states that agree. -/

section
variable {s t : State}

namespace State.AgreeOnReadable

theorem refl (s : State) : s.AgreeOnReadable s := by
  constructor <;> intros <;> trivial

theorem setCrcState (h : s.AgreeOnReadable t) (v : Word) : (s.setCrcState v).AgreeOnReadable (t.setCrcState v) :=
  { h with crc_state := rfl }

theorem setAdl (h : s.AgreeOnReadable t) (p : Half × Half) : (s.setAdl p).AgreeOnReadable (t.setAdl p) :=
  { h with adl_a := rfl, adl_b := rfl }

theorem setErr (h : s.AgreeOnReadable t) (b : Bool) (c : Nibble) : (s.setErr b c).AgreeOnReadable (t.setErr b c) :=
  { h with err := rfl, err_code := rfl }

theorem setEmitQ (h : s.AgreeOnReadable t) (q : List Byte) : (s.setEmitQ q).AgreeOnReadable (t.setEmitQ q) :=
  { h with emit_q := rfl }

theorem setOutFifo (h : s.AgreeOnReadable t) (q : List Byte) : (s.setOutFifo q).AgreeOnReadable (t.setOutFifo q) :=
  { h with out_fifo := rfl }

theorem setEnv (h : s.AgreeOnReadable t) (e : Env) : (s.setEnv e).AgreeOnReadable (t.setEnv e) :=
  { h with env := rfl }

/-- The two ghosts need not agree (10_state.md R35). -/
theorem setGhost (h : s.AgreeOnReadable t) (g g' : Ghost) : (s.setGhost g).AgreeOnReadable (t.setGhost g') :=
  { h with }

/-- With FRM_COUNT = 0 no byte of FRM_BUF is collected. -/
theorem setFrmCount_zero (h : s.AgreeOnReadable t) : (s.setFrmCount 0).AgreeOnReadable (t.setFrmCount 0) :=
  { h with frm_count := rfl, buf := fun _ _ hi => absurd hi (Nat.not_lt_zero _) }

/-- With no frame open neither the sums nor the buffer need agree. -/
theorem setFrmOpen_false (h : s.AgreeOnReadable t) : (s.setFrmOpen false).AgreeOnReadable (t.setFrmOpen false) :=
  { h with frm_open := rfl, sums := nofun, buf := nofun }

theorem transferEnabled_eq (h : s.AgreeOnReadable t) : transferEnabled s = transferEnabled t := by
  simp only [transferEnabled, h.emit_q, h.out_fifo]

theorem outValid_eq (h : s.AgreeOnReadable t) : outValid s = outValid t := by
  simp only [outValid, h.out_fifo]

theorem readReg_eq (h : s.AgreeOnReadable t) (r : Reg) : readReg r s = readReg r t := by
  cases r with
  | cmd => rfl
  | status => simp only [readReg, statusWord, h.frm_count, h.err_code, h.err, h.frm_open]
  | crcResult => simp only [readReg, crcResultWord, h.crc_state]
  | adlerResult => simp only [readReg, adlerResultWord, h.adl_a, h.adl_b]

/-- The bytes collected in an open frame agree. -/
theorem bufTake_eq (h : s.AgreeOnReadable t) (ho : s.frmOpen = true) :
    bufTake s s.frmCount.toNat = bufTake t t.frmCount.toNat := by
  rw [← h.frm_count]
  exact bufTake_congr (h.buf ho)

theorem observed_eq (h : s.AgreeOnReadable t) : s.observed = t.observed := by
  simp only [State.observed, h.env, h.err]

end State.AgreeOnReadable

/-! The operations the commands share -/

theorem emitSeq_agree (h : s.AgreeOnReadable t) (bs : List Byte) :
    (emitSeq bs s).AgreeOnReadable (emitSeq bs t) := by
  unfold emitSeq
  rw [h.emit_q]
  exact (h.setEmitQ _).setGhost _ _

theorem raiseError_agree (h : s.AgreeOnReadable t) (e : CmdError) :
    (raiseError e s).AgreeOnReadable (raiseError e t) :=
  h.setErr true _

theorem resetEvent_agree (h : s.AgreeOnReadable t) : (resetEvent s).AgreeOnReadable (resetEvent t) := by
  unfold resetEvent
  rw [h.env]
  exact .refl _

/-! The framer -/

/-- FRM.START gives the sums their initial values and collects no byte, so nothing left of an earlier frame is read. -/
theorem openFrame_agree (h : s.AgreeOnReadable t) : (openFrame s).AgreeOnReadable (openFrame t) :=
  { emitSeq_agree h zlibHeader with
    frm_open := rfl
    frm_count := rfl
    sums := fun _ => ⟨rfl, rfl⟩
    buf := fun _ _ hi => absurd hi (Nat.not_lt_zero _) }

theorem flushFull_agree (h : s.AgreeOnReadable t) (ho : s.frmOpen = true) :
    (flushFull s).AgreeOnReadable (flushFull t) := by
  by_cases hc : s.frmCount = fullCount
  · have hct : t.frmCount = fullCount := h.frm_count ▸ hc
    have collected : bufTake s window = bufTake t window := by
      simpa [hc, hct, fullCount, window] using h.bufTake_eq ho
    rw [flushFull_full hc, flushFull_full hct, collected]
    exact (emitSeq_agree h _).setFrmCount_zero
  · rw [flushFull_notFull hc, flushFull_notFull (h.frm_count ▸ hc)]
    exact h

/-- The stored byte is the one byte that joins those collected, and FRM.BYTE has written it. -/
theorem storeByte_buf (h : s.AgreeOnReadable t) (d : Byte) (ho : s.frmOpen = true) {i : Nat}
    (hi : i < (s.frmCount + 1).toNat) : bufRead (storeByte d s) i = bufRead (storeByte d t) i := by
  change bufRead (bufWrite s.frmCount.toNat d s) i = bufRead (bufWrite t.frmCount.toNat d t) i
  rw [← h.frm_count]
  by_cases hlast : i = s.frmCount.toNat
  · rw [hlast, bufRead_bufWrite_same, bufRead_bufWrite_same]
  · rw [bufRead_bufWrite_other d s hlast, bufRead_bufWrite_other d t hlast]
    have hlt : i < s.frmCount.toNat := by
      have : (s.frmCount + 1).toNat ≤ s.frmCount.toNat + 1 := Nat.mod_le _ _
      omega
    exact h.buf ho i hlt

theorem storeByte_agree (h : s.AgreeOnReadable t) (d : Byte) :
    (storeByte d s).AgreeOnReadable (storeByte d t) :=
  { h with
    frm_count := congrArg (· + 1) h.frm_count
    sums := fun ho => by
      obtain ⟨ha, hb⟩ := h.sums ho
      simp [ha, hb]
    buf := fun ho _ hi => storeByte_buf h d ho hi }

theorem closeFrame_agree (h : s.AgreeOnReadable t) (ho : s.frmOpen = true) :
    (closeFrame s).AgreeOnReadable (closeFrame t) := by
  obtain ⟨ha, hb⟩ := h.sums ho
  unfold closeFrame
  simp only [emitBlock_eq, emitSeq_frmA, emitSeq_frmB, h.bufTake_eq ho, ha, hb]
  exact ((emitSeq_agree (emitSeq_agree h _) _).setFrmOpen_false.setFrmCount_zero).setGhost _ _

/-! The commands -/

/-- Two answers of one kind, with the same reason or with next states that agree. -/
abbrev AgreeingAnswers : Result → Result → Prop := Result.Match State.AgreeOnReadable

theorem unlessLocked_match (h : s.AgreeOnReadable t) {r r' : Result} (hr : AgreeingAnswers r r') :
    AgreeingAnswers (unlessLocked s r) (unlessLocked t r') := by
  cases he : s.err with
  | true =>
    rw [unlessLocked_locked he, unlessLocked_locked (h.err ▸ he)]
    exact .next h
  | false =>
    rw [unlessLocked_unlocked he, unlessLocked_unlocked (h.err ▸ he)]
    exact hr

theorem withinBuffer_match (h : s.AgreeOnReadable t) {u u' : State} (hu : u.AgreeOnReadable u') :
    AgreeingAnswers (withinBuffer s u) (withinBuffer t u') := by
  unfold withinBuffer
  rw [h.frm_count]
  split
  · exact .fault _
  · exact .next hu

theorem execFrmStart_match (h : s.AgreeOnReadable t) : AgreeingAnswers (execFrmStart s) (execFrmStart t) := by
  refine unlessLocked_match h (.next ?_)
  rw [← h.frm_open]
  split
  · exact raiseError_agree h _
  · exact openFrame_agree h

theorem execFrmByte_match (h : s.AgreeOnReadable t) (d : Byte) :
    AgreeingAnswers (execFrmByte d s) (execFrmByte d t) := by
  refine unlessLocked_match h ?_
  rw [← h.frm_open]
  split
  · rename_i ho
    exact withinBuffer_match h (storeByte_agree (flushFull_agree h ho) d)
  · exact .next (raiseError_agree h _)

theorem execFrmEnd_match (h : s.AgreeOnReadable t) : AgreeingAnswers (execFrmEnd s) (execFrmEnd t) := by
  refine unlessLocked_match h ?_
  rw [← h.frm_open]
  split
  · rename_i ho
    exact withinBuffer_match h (closeFrame_agree h ho)
  · exact .next (raiseError_agree h _)

theorem exec_match (h : s.AgreeOnReadable t) (i : Instr) : AgreeingAnswers (exec i s) (exec i t) := by
  cases i with
  | crcInit => exact unlessLocked_match h (.next ((h.setCrcState _).setGhost _ _))
  | crcByte d =>
    refine unlessLocked_match h (.next ?_)
    rw [h.crc_state]
    exact (h.setCrcState _).setGhost _ _
  | adlInit => exact unlessLocked_match h (.next ((h.setAdl _).setGhost _ _))
  | adlByte d =>
    refine unlessLocked_match h (.next ?_)
    rw [h.adl_a, h.adl_b]
    exact (h.setAdl _).setGhost _ _
  | frmStart => exact execFrmStart_match h
  | frmByte d => exact execFrmByte_match h d
  | frmEnd => exact execFrmEnd_match h

/-! The bus and the OUT port -/

theorem commandStep_match (h : s.AgreeOnReadable t) (v : Word) :
    AgreeingAnswers (commandStep v s) (commandStep v t) := by
  unfold commandStep
  rw [h.err]
  split
  · exact .next h
  · cases decode v with
    | command i => exact exec_match h i
    | rejected e => exact .next (raiseError_agree h e)

theorem performAccess_match (h : s.AgreeOnReadable t) (r : Reg) (op : BusOp) :
    AgreeingAnswers (performAccess r op s) (performAccess r op t) := by
  cases op with
  | read =>
    refine .next ?_
    rw [h.readReg_eq r, recordRead, recordRead, h.env]
    exact h.setEnv _
  | write v =>
    cases r with
    | cmd => exact commandStep_match h v
    | status | crcResult | adlerResult => exact .next h

/-- The next access is a matter of the surroundings alone. -/
theorem nextAccess_agree (h : s.AgreeOnReadable t) :
    (nextAccess s = none ∧ nextAccess t = none)
    ∨ ∃ a s1 t1, nextAccess s = some (a, s1) ∧ nextAccess t = some (a, t1) ∧ s1.AgreeOnReadable t1 := by
  unfold nextAccess
  rw [h.env]
  split
  · exact .inr ⟨_, _, _, rfl, rfl, h.setEnv _⟩
  · exact .inr ⟨_, _, _, rfl, rfl, h.setEnv _⟩
  · exact .inl ⟨rfl, rfl⟩

theorem hostReady_eq (h : s.AgreeOnReadable t) : hostReady s = hostReady t := by
  unfold hostReady
  rw [h.emit_q]
  obtain ⟨hs, ht⟩ | ⟨a, s1, t1, hs, ht, -⟩ := nextAccess_agree h
  · rw [hs, ht]
  · rw [hs, ht, Option.isSome_some, Option.isSome_some]

theorem hostMove_match (h : s.AgreeOnReadable t) : AgreeingAnswers (hostMove s) (hostMove t) := by
  unfold hostMove
  obtain ⟨hs, ht⟩ | ⟨a, s1, t1, hs, ht, h1⟩ := nextAccess_agree h
  · rw [hs, ht]
    exact .next h
  · rw [hs, ht]
    dsimp only
    cases accessTarget a with
    | error r => exact .refused r
    | ok r =>
      dsimp only
      rw [h1.emit_q]
      split
      · exact performAccess_match h1 r a.op
      · rw [h1.env]
        exact .next (h1.setEnv _)

theorem transferStep_agree (h : s.AgreeOnReadable t) : (transferStep s).AgreeOnReadable (transferStep t) := by
  unfold transferStep
  rw [h.emit_q, h.out_fifo]
  split
  · exact h
  · split
    · exact (h.setEmitQ _).setOutFifo _
    · exact h

theorem sinkStep_agree (h : s.AgreeOnReadable t) : (sinkStep s).AgreeOnReadable (sinkStep t) := by
  unfold sinkStep
  rw [h.out_fifo, h.env]
  split
  · exact h
  · exact (h.setOutFifo _).setEnv _

/-! The step -/

theorem runMove_match (h : s.AgreeOnReadable t) (m : Move) : AgreeingAnswers (runMove m s) (runMove m t) := by
  cases m with
  | host => exact hostMove_match h
  | transfer => exact .next (transferStep_agree h)
  | sink => exact .next (sinkStep_agree h)
  | reset => exact .next (resetEvent_agree h)

theorem idleMove_match (h : s.AgreeOnReadable t) : AgreeingAnswers (idleMove s) (idleMove t) := by
  unfold idleMove
  rw [h.transferEnabled_eq, hostReady_eq h, h.env, h.outValid_eq, h.emit_q]
  split
  · exact .next (transferStep_agree h)
  · split
    · exact hostMove_match h
    · split
      · exact .next (sinkStep_agree h)
      · split
        · exact .next h
        · exact .fault _

theorem step_match (h : s.AgreeOnReadable t) : AgreeingAnswers (step s) (step t) := by
  unfold step stepMove
  rw [h.env]
  split
  · exact idleMove_match h
  · exact runMove_match (h.setEnv _) _

end

/-- Settles O40: agreement on what can be read is kept by every mover, and an observation reads only the surroundings
and ERR. -/
theorem unreadableStateCannotBeFelt : Obligations.UnreadableStateCannotBeFelt :=
  fun _ _ h => ⟨step_match h, h.observed_eq⟩

end Sys2Proof.Machine
end

section
/-! PROOFS. Every bit of STATUS, and the invariants of 10_state.md R36: they hold at reset and every step keeps them. -/

namespace Sys2Proof.Machine

/-! ## STATUS (10_state.md R32) -/

/-- Settles O27: a field of STATUS lies in the low part of every concatenation it is nested in, and is the high part of the
last one. -/
theorem statusLayout : Obligations.StatusLayout := by
  intro s
  simp only [readReg, statusWord]
  refine ⟨?frmOpen, ?err, ?zero, ?errCode, ?zeroByte, ?frmCount⟩
  case frmOpen => simp only [BitVec.getLsbD_append]; simp
  case err => simp only [BitVec.getLsbD_append]; simp
  case zero =>
    rw [BitVec.extractLsb'_append_eq_of_add_le (by decide), BitVec.extractLsb'_append_eq_of_add_le (by decide),
      BitVec.extractLsb'_append_eq_of_add_le (by decide)]
    exact BitVec.extractLsb'_append_eq_left
  case errCode =>
    rw [BitVec.extractLsb'_append_eq_of_add_le (by decide), BitVec.extractLsb'_append_eq_of_add_le (by decide)]
    exact BitVec.extractLsb'_append_eq_left
  case zeroByte =>
    rw [BitVec.extractLsb'_append_eq_of_add_le (by decide)]
    exact BitVec.extractLsb'_append_eq_left
  case frmCount => exact BitVec.extractLsb'_append_eq_left

/-! ## The invariants (10_state.md R36)

They hold at reset. Then one rule for each update of State and each shared operation: it takes a state that meets them to
one that meets them. -/

/-- Settles O38: nothing has been seen or emitted, and the reset values are those of the empty sequence. -/
theorem invariantsHoldAtReset : Obligations.InvariantsHoldAtReset where
  adl_a := by decide
  adl_b := by decide
  closed _ := ⟨rfl, rfl⟩
  opened := nofun
  crc_eq := rfl
  adler_eq := rfl
  err_iff := by decide
  err_code := by decide
  out_log := rfl
  fifo_length := Nat.zero_le _
  buf_wf := rfl

section
variable {s t : State}

namespace State

theorem sameFramer_self (s : State) : s.SameFramer s :=
  ⟨rfl, rfl, rfl, rfl, rfl, fun _ => rfl⟩

/-- The items of an open frame depend on the framer alone. -/
theorem FrameInv.of_sameFramer {seen : List Byte} (h : s.FrameInv seen) (same : s.SameFramer t) : t.FrameInv seen := by
  obtain ⟨-, hcount, ha, hb, -, hbuf⟩ := same
  exact {
    count_le := hcount ▸ h.count_le
    sum_a := ha ▸ h.sum_a
    sum_b := hb ▸ h.sum_b
    count_zero := hcount ▸ h.count_zero
    count_eq := hcount ▸ h.count_eq
    adler_eq := by rw [ha, hb, h.adler_eq]
    buf_eq := by rw [hcount, funext hbuf, h.buf_eq] }

namespace Inv

theorem opened_of_sameFramer (h : s.Inv) (same : s.SameFramer t) (ho : t.frmOpen = true) :
    ∃ seen, t.ghost.frmSeen = some seen ∧ t.FrameInv seen := by
  have ⟨hopen, _, _, _, hseen, _⟩ := same
  obtain ⟨seen, hs, frame⟩ := h.opened (hopen ▸ ho)
  exact ⟨seen, hseen.trans hs, frame.of_sameFramer same⟩

theorem setEnv (h : s.Inv) {e : Env} (htaken : e.taken = s.env.taken) : (s.setEnv e).Inv :=
  { h with opened := h.opened_of_sameFramer (sameFramer_self s), out_log := htaken ▸ h.out_log }

theorem startCrc (h : s.Inv) : ((s.setCrcState crcOnes).setGhost { s.ghost with crcSeen := [] }).Inv :=
  { h with opened := h.opened_of_sameFramer (sameFramer_self s), crc_eq := rfl }

theorem feedCrc (h : s.Inv) (d : Byte) : ((s.setCrcState (crcUpdate8 s.crcState d)).setGhost
    { s.ghost with crcSeen := s.ghost.crcSeen ++ [d] }).Inv :=
  { h with opened := h.opened_of_sameFramer (sameFramer_self s), crc_eq := crc32_snoc h.crc_eq d }

theorem startAdler (h : s.Inv) : ((s.setAdl adlInitial).setGhost { s.ghost with adlSeen := [] }).Inv :=
  { h with
    opened := h.opened_of_sameFramer (sameFramer_self s)
    adl_a := show (1 : Half).toNat < adlMod by decide
    adl_b := show (0 : Half).toNat < adlMod by decide
    adler_eq := rfl }

theorem feedAdler (h : s.Inv) (d : Byte) : ((s.setAdl (adlUpdate (s.adlA, s.adlB) d)).setGhost
    { s.ghost with adlSeen := s.ghost.adlSeen ++ [d] }).Inv :=
  { h with
    opened := h.opened_of_sameFramer (sameFramer_self s)
    adl_a := (adlUpdate_lt _ d).1
    adl_b := (adlUpdate_lt _ d).2
    adler_eq := adler32_snoc h.adler_eq d }

end Inv

end State

theorem raiseError_inv (h : s.Inv) (e : CmdError) : (raiseError e s).Inv :=
  { h with
    opened := h.opened_of_sameFramer (State.sameFramer_self s)
    err_iff := ⟨nofun, fun hc => absurd hc (CmdError.code_ne_zero e)⟩
    err_code := CmdError.code_le e }

/-- Emitted bytes join OUT_LOG and EMIT_Q alike (20_memory.md R53). -/
theorem emitSeq_inv (h : s.Inv) (bs : List Byte) : (emitSeq bs s).Inv :=
  { h with opened := h.opened_of_sameFramer (State.sameFramer_self s), out_log := by simp [h.out_log] }

theorem resetEvent_inv (s : State) : (resetEvent s).Inv :=
  invariantsHoldAtReset.setEnv rfl

/-! The framer -/

theorem frameInv_nil (hc : s.frmCount = 0) (ha : s.frmA = adlInitial.1) (hb : s.frmB = adlInitial.2) :
    s.FrameInv [] where
  count_le := by simp [hc]
  sum_a := by rw [ha]; decide
  sum_b := by rw [hb]; decide
  count_zero := by simp [hc]
  count_eq := by simp
  adler_eq := by rw [ha, hb]; rfl
  buf_eq := by simp [hc]

theorem openFrame_inv (h : s.Inv) : (openFrame s).Inv :=
  { emitSeq_inv h zlibHeader with
    closed := nofun
    opened := fun _ => ⟨[], rfl, frameInv_nil rfl rfl rfl⟩ }

theorem State.Inv.dropFrame (h : s.Inv) :
    (((s.setFrmOpen false).setFrmCount 0).setGhost { s.ghost with frmSeen := none }).Inv :=
  { h with closed := fun _ => ⟨rfl, rfl⟩, opened := nofun }

theorem closeFrame_inv (h : s.Inv) : (closeFrame s).Inv := by
  unfold closeFrame
  rw [emitBlock_eq]
  exact (emitSeq_inv (emitSeq_inv h _) _).dropFrame

/-- An open frame in which FRM.BYTE can store (42_framer.md R146): the buffer has room, as a full one has been emitted, and
holds the bytes since the last full block. -/
structure State.RoomInv (s : State) (seen : List Byte) : Prop where
  count_eq : s.frmCount.toNat = seen.length % window
  adler_eq : joinHalves s.frmB s.frmA = adler32 seen
  buf_eq   : (List.range s.frmCount.toNat).map (Memory.read s.frmBuf)
               = (seen.drop (seen.length - s.frmCount.toNat)).map some

section
variable {seen : List Byte}

theorem State.RoomInv.count_lt (h : s.RoomInv seen) : s.frmCount.toNat < window :=
  h.count_eq ▸ Nat.mod_lt _ (by decide)

/-- The bytes of a full buffer end on a block's end (42_framer.md R140). -/
theorem State.FrameInv.length_of_full (h : s.FrameInv seen) (hc : s.frmCount = fullCount) : seen.length % window = 0 := by
  have full : s.frmCount.toNat = 32768 := by rw [hc]; rfl
  have zero := h.count_zero
  have count := h.count_eq
  simp only [window] at count ⊢
  omega

theorem State.FrameInv.length_of_notFull (h : s.FrameInv seen) (hc : s.frmCount ≠ fullCount) :
    s.frmCount.toNat = seen.length % window := by
  have notFull : s.frmCount.toNat ≠ 32768 := fun e => hc (BitVec.eq_of_toNat_eq e)
  have zero := h.count_zero
  have count := h.count_eq
  simp only [window] at count ⊢
  omega

/-- The stored byte joins the end of the bytes the buffer holds. -/
theorem storeByte_buf_eq (h : s.RoomInv seen) (d : Byte) :
    (List.range (s.frmCount.toNat + 1)).map (Memory.read (Memory.write s.frmBuf s.frmCount.toNat d))
      = ((seen ++ [d]).drop (seen.length - s.frmCount.toNat)).map some := by
  have kept : (List.range s.frmCount.toNat).map (Memory.read (Memory.write s.frmBuf s.frmCount.toNat d))
      = (List.range s.frmCount.toNat).map (Memory.read s.frmBuf) :=
    List.map_congr_left fun i hi => Memory.read_write_other _ d (Nat.ne_of_lt (List.mem_range.mp hi))
  rw [List.range_succ, List.map_append, kept, h.buf_eq, List.drop_append_of_le_length (Nat.sub_le _ _)]
  simp [Memory.read_write_same]

theorem storeByte_frameInv (h : s.RoomInv seen) (d : Byte) : (storeByte d s).FrameInv (seen ++ [d]) := by
  have room := h.count_lt
  have count : (s.frmCount + 1).toNat = s.frmCount.toNat + 1 := by
    simp only [window] at room
    rw [BitVec.toNat_add]; simp; omega
  exact {
    count_le := by rw [storeByte_frmCount, count]; exact room
    sum_a := (adlUpdate_lt _ d).1
    sum_b := (adlUpdate_lt _ d).2
    count_zero := by rw [storeByte_frmCount, count]; simp
    count_eq := by rw [storeByte_frmCount, count, h.count_eq]; simp
    adler_eq := adler32_snoc h.adler_eq d
    buf_eq := by
      rw [storeByte_frmCount, count, List.length_append, List.length_singleton, Nat.add_sub_add_right]
      exact storeByte_buf_eq h d }

/-- FRM_COUNT is given apart from s, as the invariants do not hold between the emission of a full block and the store. -/
theorem storeByte_inv (h : s.Inv) {n : Half} (ho : s.frmOpen = true) (hseen : s.ghost.frmSeen = some seen)
    (hroom : (s.setFrmCount n).RoomInv seen) (d : Byte) : (storeByte d (s.setFrmCount n)).Inv :=
  { h with
    closed := fun hc => absurd (ho.symm.trans hc) (by decide)
    opened := fun _ => ⟨seen ++ [d], by simp [hseen], storeByte_frameInv hroom d⟩
    buf_wf := Memory.wf_write d hroom.count_lt h.buf_wf }

end

/-- Once a full buffer has been emitted there is room for the byte (42_framer.md R146). -/
theorem frmByte_inv (h : s.Inv) (ho : s.frmOpen = true) (d : Byte) : (storeByte d (flushFull s)).Inv := by
  obtain ⟨seen, hseen, frame⟩ := h.opened ho
  by_cases hc : s.frmCount = fullCount
  · rw [flushFull_full hc]
    have room : ((emitSeq (block false (bufTake s window)) s).setFrmCount 0).RoomInv seen :=
      { count_eq := (frame.length_of_full hc).symm, adler_eq := frame.adler_eq, buf_eq := by simp }
    exact storeByte_inv (emitSeq_inv h _) ho hseen room d
  · rw [flushFull_notFull hc]
    have room : s.RoomInv seen :=
      { count_eq := frame.length_of_notFull hc, adler_eq := frame.adler_eq, buf_eq := frame.buf_eq }
    exact storeByte_inv (n := s.frmCount) h ho hseen room d

/-! The commands, the bus and the OUT port -/

theorem exec_inv {i : Instr} (h : s.Inv) (he : s.err = false) (hx : exec i s = .next t) : t.Inv := by
  cases exec_cases he hx with
  | crcInit => exact h.startCrc
  | crcByte d => exact h.feedCrc d
  | adlInit => exact h.startAdler
  | adlByte d => exact h.feedAdler d
  | frmStart => exact openFrame_inv h
  | frmByte d ho => exact frmByte_inv h ho d
  | frmEnd => exact closeFrame_inv h
  | frmStartFails | frmByteFails | frmEndFails => exact raiseError_inv h _

theorem commandStep_inv {v : Word} (h : s.Inv) (hx : commandStep v s = .next t) : t.Inv := by
  obtain ⟨-, rfl⟩ | ⟨-, e, -, rfl⟩ | ⟨he, i, -, hi⟩ := commandStep_cases hx
  · exact h
  · exact raiseError_inv h e
  · exact exec_inv h he hi

theorem hostMove_inv (h : s.Inv) (hx : hostMove s = .next t) : t.Inv := by
  obtain ⟨-, rfl⟩ | ⟨a, s1, r, hn, -, haccess⟩ := hostMove_cases hx
  · exact h
  · obtain ⟨e, rfl, -, -, htaken, -⟩ := nextAccess_setEnv hn
    have h1 : (s.setEnv e).Inv := h.setEnv htaken
    obtain ⟨-, rfl⟩ | ⟨-, -, rfl⟩ | ⟨-, -, -, rfl⟩ | ⟨-, v, -, -, hv⟩ := haccess
    · exact h1.setEnv rfl
    · exact h1.setEnv rfl
    · exact h1
    · exact commandStep_inv h1 hv

/-- A transfer keeps the order of the output and is taken only where OUT_FIFO has room (20_memory.md R54). -/
theorem transferStep_inv (h : s.Inv) : (transferStep s).Inv := by
  unfold transferStep
  split
  · exact h
  · rename_i b q hq
    split
    · rename_i room
      exact { h with
        opened := h.opened_of_sameFramer (State.sameFramer_self s)
        out_log := by simp [h.out_log, hq]
        fifo_length := by simpa using room }
    · exact h

theorem sinkStep_inv (h : s.Inv) : (sinkStep s).Inv := by
  unfold sinkStep
  split
  · exact h
  · rename_i b q hq
    have length : q.length + 1 ≤ Config.outDepth := by simpa [hq] using h.fifo_length
    exact { h with
      opened := h.opened_of_sameFramer (State.sameFramer_self s)
      out_log := by simp [h.out_log, hq]
      fifo_length := Nat.le_of_succ_le length }

end

/-- Settles O39, by cases on the agent that moves. -/
theorem everyStepKeepsTheInvariants : Obligations.EveryStepKeepsTheInvariants := by
  intro s t h hx
  have scheduled : (s.setEnv { s.env with moves := s.env.moves.tail }).Inv := h.setEnv rfl
  cases step_cases hx with
  | host s0 hs hmove => subst hs; exact hostMove_inv scheduled hmove
  | transfer s0 hs hmove => subst hs hmove; exact transferStep_inv scheduled
  | sink s0 hs hmove => subst hs hmove; exact sinkStep_inv scheduled
  | reset rest hm hmove => subst hmove; exact resetEvent_inv _
  | idle hm hsame => subst hsame; exact h

end Sys2Proof.Machine
end

section
/-! PROOFS. The surface of 20_memory.md: what the host's turn, a transfer and a sink step can do, said once, and the statements
about the bus and the OUT stream that follow. -/

namespace Sys2Proof.Machine

/-! ## Rules of the bus (20_memory.md R51, R57 to R60) -/

section
variable {s s1 t : State} {a : BusAccess} {r : Reg}

theorem regOffset_regAt {offset : Int} (low : 0 ≤ offset) (high : offset < 16) (aligned : offset % 4 = 0) :
    regOffset (regAt offset) = offset := by
  have four : offset = 0 ∨ offset = 4 ∨ offset = 8 ∨ offset = 12 := by omega
  obtain rfl | rfl | rfl | rfl := four <;> rfl

/-- The window is exactly its four words (20_memory.md R51). -/
theorem accessTarget_eq_ok_iff : accessTarget a = .ok r ↔ a.size = 4 ∧ a.offset = regOffset r := by
  constructor
  · intro h
    unfold accessTarget at h
    split_ifs at h with hsize hwindow haligned
    cases h
    exact ⟨not_not.mp hsize, (regOffset_regAt (by omega) (by omega) (not_not.mp haligned)).symm⟩
  · rintro ⟨hsize, hoffset⟩
    cases r <;> simp [accessTarget, hsize, hoffset, regOffset, regAt]

theorem regOffset_mem (r : Reg) : regOffset r ∈ ([0x0, 0x4, 0x8, 0xC] : List Int) := by
  cases r <;> decide

theorem hostMove_refused {why : Refusal} (hn : nextAccess s = some (a, s1)) (ha : accessTarget a = .error why) :
    hostMove s = .refused why := by
  simp [hostMove, hn, ha]

theorem hostMove_waits (hn : nextAccess s = some (a, s1)) (ha : accessTarget a = .ok r) (hq : s1.emitQ ≠ []) :
    hostMove s = .next (s1.setEnv { s1.env with bus := some a }) := by
  simp [hostMove, hn, ha, hq]

theorem hostMove_accepted (hn : nextAccess s = some (a, s1)) (ha : accessTarget a = .ok r) (hq : s1.emitQ = []) :
    hostMove s = performAccess r a.op s1 := by
  simp [hostMove, hn, ha, hq]

theorem performAccess_write_readOnly (v : Word) (hr : r ≠ .cmd) : performAccess r (.write v) s = .next s := by
  cases r with
  | cmd => exact absurd rfl hr
  | status | crcResult | adlerResult => rfl

theorem step_scheduled {m : Move} {rest : List Move} (hm : s.env.moves = m :: rest) :
    step s = runMove m (s.setEnv { s.env with moves := rest }) := by
  simp [step, stepMove, hm]

theorem step_scheduled_of_head {m : Move} (hm : s.env.moves.head? = some m) :
    step s = runMove m (s.setEnv { s.env with moves := s.env.moves.tail }) := by
  obtain ⟨rest, hm⟩ := List.head?_eq_some_iff.mp hm
  rw [step_scheduled hm, hm, List.tail_cons]

theorem step_unscheduled (hm : s.env.moves = []) : step s = idleMove s := by
  simp [step, stepMove, hm]

namespace State.HostTurn

/-- Scheduled or not, the host's turn is a host move, from a state that differs in the schedule alone. -/
theorem step_eq_hostMove (h : s.HostTurn a s1) : ∃ e : Env, e.reads = s.env.reads
    ∧ nextAccess (s.setEnv e) = some (a, s1) ∧ step s = hostMove (s.setEnv e) := by
  obtain ⟨rest, hm, hn⟩ | ⟨hm, hq, hn⟩ := h
  · exact ⟨{ s.env with moves := rest }, rfl, hn, step_scheduled hm⟩
  · have noTransfer : transferEnabled s = false := by simp [transferEnabled, hq]
    have ready : hostReady s = true := by simp [hostReady, hq, hn]
    refine ⟨s.env, rfl, hn, ?_⟩
    rw [step_unscheduled hm, idleMove, noTransfer, ready]
    rfl

/-- An access that leaves the host or the bus changes the surroundings alone. -/
theorem eq_setEnv (h : s.HostTurn a s1) : ∃ e : Env, s1 = s.setEnv e ∧ e.reads = s.env.reads := by
  obtain ⟨e, hreads, hn, -⟩ := h.step_eq_hostMove
  obtain ⟨e1, rfl, -, hreads1, -⟩ := nextAccess_setEnv hn
  exact ⟨e1, rfl, hreads1.trans hreads⟩

theorem emitQ_eq (h : s.HostTurn a s1) : s1.emitQ = s.emitQ := by
  obtain ⟨e, rfl, -⟩ := h.eq_setEnv
  rfl

theorem step_refused {why : Refusal} (h : s.HostTurn a s1) (ha : accessTarget a = .error why) :
    step s = .refused why := by
  obtain ⟨e, -, hn, hs⟩ := h.step_eq_hostMove
  rw [hs, hostMove_refused hn ha]

theorem step_waits (h : s.HostTurn a s1) (ha : accessTarget a = .ok r) (hq : s.emitQ ≠ []) :
    step s = .next (s1.setEnv { s1.env with bus := some a }) := by
  obtain ⟨e, -, hn, hs⟩ := h.step_eq_hostMove
  rw [hs, hostMove_waits hn ha (h.emitQ_eq ▸ hq)]

theorem step_accepted (h : s.HostTurn a s1) (ha : accessTarget a = .ok r) (hq : s.emitQ = []) :
    step s = performAccess r a.op s1 := by
  obtain ⟨e, -, hn, hs⟩ := h.step_eq_hostMove
  rw [hs, hostMove_accepted hn ha (h.emitQ_eq.trans hq)]

end State.HostTurn

/-- No change of the surroundings touches the block. -/
theorem setEnv_frame (s : State) (e : Env) : s.SameCrc (s.setEnv e) ∧ s.SameAdler (s.setEnv e)
    ∧ s.SameFramer (s.setEnv e) ∧ s.SameErr (s.setEnv e) ∧ s.SameOut (s.setEnv e) :=
  ⟨⟨rfl, rfl⟩, ⟨rfl, rfl, rfl⟩, s.sameFramer_self, ⟨rfl, rfl⟩, rfl, rfl, rfl⟩

/-! ## What a command emits (20_memory.md R53)

A command leaves the surroundings as they are and adds bytes at the end of EMIT_Q and OUT_LOG alike. -/

theorem flushFull_emits (s : State) : ∃ bs, s.Emits (flushFull s) bs := by
  by_cases hc : s.frmCount = fullCount
  · exact ⟨block false (bufTake s window), by simp [flushFull_full hc]⟩
  · exact ⟨[], by simp [flushFull_notFull hc]⟩

theorem exec_emits {i : Instr} (he : s.err = false) (hx : exec i s = .next t) :
    t.env = s.env ∧ ∃ bs, s.Emits t bs := by
  cases exec_cases he hx with
  | crcInit | crcByte | adlInit | adlByte => exact ⟨rfl, [], by simp⟩
  | frmStart => exact ⟨rfl, zlibHeader, by simp⟩
  | frmByte d =>
    obtain ⟨bs, hq, hf, hl⟩ := flushFull_emits s
    exact ⟨by simp, bs, by simp [hq, hl]⟩
  | frmEnd => exact ⟨by simp, _, closeFrame_emitQ s, closeFrame_outFifo s, closeFrame_outLog s⟩
  | frmStartFails | frmByteFails | frmEndFails => exact ⟨rfl, [], by simp [raiseError]⟩

theorem commandStep_emits {v : Word} (hx : commandStep v s = .next t) : t.env = s.env ∧ ∃ bs, s.Emits t bs := by
  obtain ⟨-, rfl⟩ | ⟨-, e, -, rfl⟩ | ⟨he, i, -, hi⟩ := commandStep_cases hx
  · exact ⟨rfl, [], by simp⟩
  · exact ⟨rfl, [], by simp [raiseError]⟩
  · exact exec_emits he hi

theorem hostMove_emits (hx : hostMove s = .next t) : t.env.taken = s.env.taken ∧ ∃ bs, s.Emits t bs := by
  obtain ⟨-, rfl⟩ | ⟨a, s1, r, hn, -, haccess⟩ := hostMove_cases hx
  · exact ⟨rfl, [], by simp⟩
  · obtain ⟨e, rfl, -, -, htaken, -⟩ := nextAccess_setEnv hn
    obtain ⟨-, rfl⟩ | ⟨-, -, rfl⟩ | ⟨-, -, -, rfl⟩ | ⟨-, v, -, -, hv⟩ := haccess
    · exact ⟨htaken, [], by simp⟩
    · exact ⟨htaken, [], by simp [recordRead]⟩
    · exact ⟨htaken, [], by simp⟩
    · obtain ⟨henv, hemits⟩ := commandStep_emits hv
      exact ⟨henv ▸ htaken, hemits⟩

/-- A host move adds nothing to the words read, or it is an accepted read and changes only the surroundings. -/
theorem hostMove_reads (hx : hostMove s = .next t) : t.env.reads = s.env.reads
    ∨ s.emitQ = [] ∧ ∃ (r : Reg) (e : Env), t = s.setEnv e ∧ e.reads = s.env.reads ++ [readReg r s] := by
  obtain ⟨-, rfl⟩ | ⟨a, s1, r, hn, -, haccess⟩ := hostMove_cases hx
  · exact .inl rfl
  · obtain ⟨e, rfl, -, hreads, -⟩ := nextAccess_setEnv hn
    obtain ⟨-, rfl⟩ | ⟨hq, -, rfl⟩ | ⟨-, -, -, rfl⟩ | ⟨-, v, -, -, hv⟩ := haccess
    · exact .inl hreads
    · exact .inr ⟨hq, r, _, rfl, by simp [hreads]⟩
    · exact .inl hreads
    · exact .inl ((commandStep_emits hv).1 ▸ hreads)

/-- While output waits a host move changes only the surroundings (20_memory.md R60). -/
theorem hostMove_stalled (hx : hostMove s = .next t) (hq : s.emitQ ≠ []) : ∃ e : Env, t = s.setEnv e := by
  obtain ⟨-, rfl⟩ | ⟨a, s1, r, hn, -, haccess⟩ := hostMove_cases hx
  · exact ⟨t.env, rfl⟩
  · obtain ⟨e, rfl, -⟩ := nextAccess_setEnv hn
    obtain ⟨-, rfl⟩ | ⟨hnil, -⟩ | ⟨hnil, -⟩ | ⟨hnil, -⟩ := haccess
    · exact ⟨_, rfl⟩
    all_goals exact absurd hnil hq

end

/-! ## Rules of the OUT port (20_memory.md R54 to R56) -/

section
variable {s t u : State} {b : Byte} {q : List Byte}

/-- The invariant of the OUT port's agents: bytes have moved in order from EMIT_Q to OUT_FIFO and from there to the sink, and nothing else has changed. -/
def State.OutputFlows (s t : State) : Prop :=
  ∃ emitQ outFifo new, t = ((s.setEmitQ emitQ).setOutFifo outFifo).setEnv { s.env with taken := s.env.taken ++ new }
    ∧ new ++ outFifo ++ emitQ = s.outFifo ++ s.emitQ

/-- The units, the framer, the error registers and OUT_LOG are unchanged. -/
abbrev State.SameRegisters (s t : State) : Prop :=
  s.SameCrc t ∧ s.SameAdler t ∧ s.SameFramer t ∧ s.SameErr t ∧ t.ghost.outLog = s.ghost.outLog

/-- The bytes new have joined the end of OUT_LOG and of the bytes taken, in OUT_FIFO and in EMIT_Q together (20_memory.md R53,
R65). -/
abbrev State.Appends (s t : State) (new : List Byte) : Prop :=
  t.ghost.outLog = s.ghost.outLog ++ new
    ∧ t.env.taken ++ t.outFifo ++ t.emitQ = (s.env.taken ++ s.outFifo ++ s.emitQ) ++ new
    ∧ s.env.taken <+: t.env.taken

theorem outDepth_pos : 0 < Config.outDepth := Nat.succ_pos _

theorem transferStep_enabled (hq : s.emitQ = b :: q) (room : s.outFifo.length < Config.outDepth) :
    transferStep s = (s.setEmitQ q).setOutFifo (s.outFifo ++ [b]) := by
  simp [transferStep, hq, room]

theorem sinkStep_nil (hf : s.outFifo = []) : sinkStep s = s := by
  simp [sinkStep, hf]

theorem sinkStep_cons (hf : s.outFifo = b :: q) :
    sinkStep s = (s.setOutFifo q).setEnv { s.env with taken := s.env.taken ++ [b] } := by
  simp [sinkStep, hf]

theorem idleMove_transfer (hq : s.emitQ = b :: q) (room : s.outFifo.length < Config.outDepth) :
    idleMove s = .next (transferStep s) := by
  simp [idleMove, transferEnabled, hq, room]

theorem idleMove_sink (hq : s.emitQ ≠ []) (full : Config.outDepth ≤ s.outFifo.length) (hf : s.outFifo = b :: q)
    (hr : s.env.outReady = true) : idleMove s = .next (sinkStep s) := by
  have noTransfer : transferEnabled s = false := by simp [transferEnabled, Nat.not_lt.mpr full]
  have stalled : hostReady s = false := by simp [hostReady, hq]
  have valid : outValid s = true := by simp [outValid, hf]
  simp [idleMove, noTransfer, stalled, hr, valid]

namespace State.OutputFlows

theorem refl (s : State) : s.OutputFlows s :=
  ⟨s.emitQ, s.outFifo, [], by simp [setEmitQ, setOutFifo, setEnv], by simp⟩

theorem trans (h : s.OutputFlows t) (h' : t.OutputFlows u) : s.OutputFlows u := by
  obtain ⟨eq, of, new, rfl, hbytes⟩ := h
  obtain ⟨eq', of', new', rfl, hbytes'⟩ := h'
  refine ⟨eq', of', new ++ new', by simp [setEmitQ, setOutFifo, setEnv], ?_⟩
  calc (new ++ new') ++ of' ++ eq'
    _ = new ++ (new' ++ of' ++ eq') := by simp
    _ = new ++ (of ++ eq) := by rw [hbytes']; rfl
    _ = s.outFifo ++ s.emitQ := by rw [← hbytes]; simp

theorem sameRegisters (h : s.OutputFlows t) : s.SameRegisters t := by
  obtain ⟨_, _, _, rfl, -⟩ := h
  exact ⟨⟨rfl, rfl⟩, ⟨rfl, rfl, rfl⟩, s.sameFramer_self, ⟨rfl, rfl⟩, rfl⟩

theorem env_eq (h : s.OutputFlows t) : t.env = { s.env with taken := t.env.taken } := by
  obtain ⟨_, _, _, rfl, -⟩ := h
  rfl

theorem appends (h : s.OutputFlows t) : s.Appends t [] := by
  obtain ⟨eq, of, new, rfl, hbytes⟩ := h
  exact ⟨by simp, by simpa using hbytes, new, rfl⟩

end State.OutputFlows

theorem transferStep_flows (s : State) : s.OutputFlows (transferStep s) := by
  unfold transferStep
  split
  · exact .refl s
  · rename_i b q hq
    split
    · exact ⟨q, s.outFifo ++ [b], [], by simp [State.setEmitQ, State.setOutFifo, State.setEnv], by simp [hq]⟩
    · exact .refl s

theorem sinkStep_flows (s : State) : s.OutputFlows (sinkStep s) := by
  unfold sinkStep
  split
  · exact .refl s
  · rename_i b q hf
    exact ⟨s.emitQ, q, [b], rfl, by simp [hf]⟩

theorem State.Emits.appends {bs : List Byte} (h : s.Emits t bs) (htaken : t.env.taken = s.env.taken) :
    s.Appends t bs := by
  obtain ⟨hq, hf, hl⟩ := h
  exact ⟨hl, by simp [hq, hf, htaken], by simp [htaken]⟩

/-! ## Runs that drain the output (20_memory.md R54, 70_reset_and_hazards.md R195) -/

/-- At most n steps empty EMIT_Q, and they only move output. -/
def State.DrainsWithin (s : State) (n : Nat) : Prop :=
  ∃ k ≤ n, ∃ t : State, Host.Core.run Sys2Proof.core k s = .next t ∧ t.emitQ = [] ∧ s.OutputFlows t

theorem run_succ (hs : step s = .next u) (k : Nat) :
    Host.Core.run Sys2Proof.core (k + 1) s = Host.Core.run Sys2Proof.core k u := by
  have hs : Sys2Proof.core.step s = .next u := hs
  simp only [Host.Core.run, hs]

namespace State.DrainsWithin

theorem of_nil (hq : s.emitQ = []) (n : Nat) : s.DrainsWithin n :=
  ⟨0, Nat.zero_le n, s, rfl, hq, .refl s⟩

theorem of_step {n : Nat} (hs : step s = .next u) (hflows : s.OutputFlows u) (hu : u.DrainsWithin n) :
    s.DrainsWithin (n + 1) := by
  obtain ⟨k, hk, t, hrun, hq, hflows'⟩ := hu
  refine ⟨k + 1, Nat.succ_le_succ hk, t, (run_succ hs k).trans hrun, hq, hflows.trans hflows'⟩

theorem mono {m n : Nat} (h : s.DrainsWithin m) (hle : m ≤ n) : s.DrainsWithin n := by
  obtain ⟨k, hk, t⟩ := h
  exact ⟨k, hk.trans hle, t⟩

end State.DrainsWithin

/-- The sink takes a byte if OUT_FIFO is full; then a byte of EMIT_Q can move. -/
theorem drainsWithin_of_outReady (q : List Byte) : ∀ s : State, s.emitQ = q → s.env.moves = [] →
    s.env.outReady = true → s.outFifo.length ≤ Config.outDepth → s.DrainsWithin (2 * q.length) := by
  induction q with
  | nil => exact fun s hq _ _ _ => .of_nil hq _
  | cons b q ih =>
    have drains_of_room : ∀ s : State, s.emitQ = b :: q → s.env.moves = [] → s.env.outReady = true →
        s.outFifo.length < Config.outDepth → s.DrainsWithin (2 * q.length + 1) := by
      intro s hq hm hr room
      have moved := transferStep_enabled hq room
      refine .of_step ((step_unscheduled hm).trans (idleMove_transfer hq room)) (transferStep_flows s) ?_
      exact ih _ (by rw [moved]; rfl) (by rw [moved]; exact hm) (by rw [moved]; exact hr) (by simpa [moved] using room)
    intro s hq hm hr hle
    by_cases room : s.outFifo.length < Config.outDepth
    · exact (drains_of_room s hq hm hr room).mono (Nat.le_succ _)
    · have full : Config.outDepth ≤ s.outFifo.length := Nat.le_of_not_lt room
      obtain ⟨c, f, hf⟩ := List.exists_cons_of_length_pos (Nat.lt_of_lt_of_le outDepth_pos full)
      have taken := sinkStep_cons hf
      have waiting : s.emitQ ≠ [] := by simp [hq]
      refine .of_step ((step_unscheduled hm).trans (idleMove_sink waiting full hf hr)) (sinkStep_flows s) ?_
      refine drains_of_room _ (by rw [taken]; exact hq) (by rw [taken]; exact hm) (by rw [taken]; exact hr) ?_
      simpa [taken, hf] using hle

end

/-! ## The host bus -/

/-- Settles O22: the offset of an access at a byte address is the distance from BASE. -/
theorem accessReachesExactlyFourWords : Obligations.AccessReachesExactlyFourWords := by
  refine ⟨⟨_, rfl⟩, rfl, fun address size op r => ?_⟩
  rw [accessTarget_eq_ok_iff]
  simp only [accessAtAddress, Int.sub_eq_iff_eq_add']

/-- Settles O23: an access the window takes is a word at the offset of a register, and any other has its refusal. -/
theorem accessOutsideTheInterfaceIsRefused : Obligations.AccessOutsideTheInterfaceIsRefused := by
  intro s s1 a h outside
  cases ha : accessTarget a with
  | error why => exact ⟨why, h.step_refused ha⟩
  | ok r =>
    obtain ⟨hsize, hoffset⟩ := accessTarget_eq_ok_iff.mp ha
    obtain hs | ho := outside
    · exact absurd hsize hs
    · exact absurd (hoffset ▸ regOffset_mem r) ho

/-- Settles O24: the access goes back on the bus, where it comes before any other. -/
theorem busStallsWhileOutputWaits : Obligations.BusStallsWhileOutputWaits := by
  intro s s1 a r h ha hq
  obtain ⟨e, rfl, hreads⟩ := h.eq_setEnv
  exact ⟨_, h.step_waits ha hq, rfl, nextAccess_of_bus rfl, hreads, setEnv_frame s _⟩

/-- Settles O25: an accepted read hands the register's word to the host and changes the surroundings alone. -/
theorem busReadReturnsTheRegister : Obligations.BusReadReturnsTheRegister := by
  intro s s1 a r h ha hop
  obtain ⟨e, rfl, hreads⟩ := h.eq_setEnv
  refine ⟨⟨e, rfl⟩, h.step_waits ha, fun hq => ?_⟩
  rw [h.step_accepted ha hq, hop, ← hreads]
  cases r <;> rfl

/-- Settles O26: an accepted write is a command step at CMD and nothing anywhere else. -/
theorem busWriteActsOnlyOnCmd : Obligations.BusWriteActsOnlyOnCmd := by
  intro s s1 a v h hop
  obtain ⟨e, rfl, -⟩ := h.eq_setEnv
  refine ⟨⟨e, rfl⟩, fun hq r ha => h.step_waits ha hq, fun hq ha => ?_, fun hq r ha hr => ?_⟩
  · rw [h.step_accepted ha hq, hop]
    rfl
  · rw [h.step_accepted ha hq, hop, performAccess_write_readOnly v hr]

/-- Settles O30: only a host move adds to the words read, and only by an accepted read. -/
theorem readsSeeOnlyWholeCommands : Obligations.ReadsSeeOnlyWholeCommands := by
  intro s t hx hne
  cases step_cases hx with
  | host s0 hs hmove =>
    subst hs
    obtain hsame | ⟨hq, r, e, rfl, hreads⟩ := hostMove_reads hmove
    · exact absurd hsame hne
    · exact ⟨hq, ⟨r, by simpa using hreads⟩, setEnv_frame s e⟩
  | transfer s0 hs hmove => subst hs hmove; exact absurd (by rw [(transferStep_flows _).env_eq]; rfl) hne
  | sink s0 hs hmove => subst hs hmove; exact absurd (by rw [(sinkStep_flows _).env_eq]; rfl) hne
  | reset rest hm hmove => subst hmove; exact absurd rfl hne
  | idle hm hsame => subst hsame; exact absurd rfl hne

/-- Settles O31: while output waits the host changes only the surroundings, and the other agents only move output. -/
theorem stallHoldsTheRegisters : Obligations.StallHoldsTheRegisters := by
  intro s t hx hq hno
  cases step_cases hx with
  | host s0 hs hmove =>
    subst hs
    obtain ⟨e, rfl⟩ := hostMove_stalled hmove hq
    exact (State.OutputFlows.refl s).sameRegisters
  | transfer s0 hs hmove => subst hs hmove; exact (transferStep_flows _).sameRegisters
  | sink s0 hs hmove => subst hs hmove; exact (sinkStep_flows _).sameRegisters
  | reset rest hm hmove => exact absurd (by rw [hm]; rfl) hno
  | idle hm hsame => subst hsame; exact (State.OutputFlows.refl _).sameRegisters

/-! ## The OUT stream -/

/-- Settles O34: the host's commands emit at the end of the stream, and the other agents move it along. -/
theorem outputIsOnlyAppended : Obligations.OutputIsOnlyAppended := by
  intro s t hx hno
  cases step_cases hx with
  | host s0 hs hmove =>
    subst hs
    obtain ⟨htaken, bs, hemits⟩ := hostMove_emits hmove
    exact ⟨bs, hemits.appends htaken⟩
  | transfer s0 hs hmove => subst hs hmove; exact ⟨[], (transferStep_flows _).appends⟩
  | sink s0 hs hmove => subst hs hmove; exact ⟨[], (sinkStep_flows _).appends⟩
  | reset rest hm hmove => exact absurd (by rw [hm]; rfl) hno
  | idle hm hsame => subst hsame; exact ⟨[], (State.OutputFlows.refl _).appends⟩

/-- Settles O36: the run that empties EMIT_Q only moves output. -/
theorem readySinkDrainsTheOutput : Obligations.ReadySinkDrainsTheOutput := by
  intro s hm hr hle
  obtain ⟨k, hk, t, hrun, hq, hflows⟩ := drainsWithin_of_outReady s.emitQ s rfl hm hr hle
  obtain ⟨crc, adler, framer, err, log⟩ := hflows.sameRegisters
  obtain ⟨-, hbytes, -⟩ := hflows.appends
  refine ⟨k, hk, t, hrun, hq, log, ?_, crc, adler, framer, err, ?_, ?_⟩
  · simpa [hq] using hbytes
  · rw [hflows.env_eq]
  · rw [hflows.env_eq]

/-- Settles O32: the one transfer step, by whichever way it comes. -/
theorem transferMovesOneByte : Obligations.TransferMovesOneByte := by
  rintro s b q hq room (hm | hm)
  · rw [step_unscheduled hm, idleMove_transfer hq room, transferStep_enabled hq room, Env.moves_tail_nil hm]
    rfl
  · rw [step_scheduled_of_head hm]
    exact congrArg Host.Outcome.next (transferStep_enabled hq room)

/-- Settles O33: out_valid and out_data are views of OUT_FIFO, and the sink step takes its first byte. -/
theorem sinkTakesTheFirstByte : Obligations.SinkTakesTheFirstByte := by
  refine ⟨fun s => by simp [outValid], fun s b q hf => ⟨by simp [outData, hf], fun hm => ?taken⟩, fun s hf hm => ?idle⟩
  case taken =>
    rw [step_scheduled_of_head hm]
    exact congrArg Host.Outcome.next (sinkStep_cons hf)
  case idle =>
    rw [step_scheduled_of_head hm]
    exact congrArg Host.Outcome.next (sinkStep_nil hf)

/-! ## The buffer's range (20_memory.md R52, notes/assumptions/5.md) -/

theorem withinBuffer_fault {s : State} (h : window < s.frmCount.toNat) (t : State) :
    withinBuffer s t = .fault .frmBufOutOfRange := by
  simp [withinBuffer, h]

/-- Settles O17: both commands check the range before they touch the buffer. -/
theorem bufferIndexBeyondCapacityStops : Obligations.BufferIndexBeyondCapacityStops := by
  intro s d he ho hc
  constructor
  · simp [exec, execFrmByte, unlessLocked_unlocked he, ho, withinBuffer_fault hc]
  · simp [exec, execFrmEnd, unlessLocked_unlocked he, ho, withinBuffer_fault hc]

end Sys2Proof.Machine
end

section
/-! PROOFS. The encoding of 30_encoding.md: a word is well formed or fails one named check, and the well-formed words are the
words of the seven commands. -/

namespace Sys2Proof

/-! ## The checks of R84 to R86 and the decoder of R87 -/

section
variable {f : CmdFields} {op d : Byte} {v : Word} {i : Instr}

theorem wellFormed_iff : f.wellFormed = true ↔
    f.rsv = 0 ∧ (f.op ∈ datalessOps ∨ f.op ∈ byteOps) ∧ (f.op ∈ datalessOps → f.data = 0) := by
  simp [CmdFields.wellFormed, CmdFields.rsvZero, CmdFields.opAssigned, CmdFields.dataLegal, and_assoc, imp_iff_not_or]

/-- R85. -/
theorem decode_of_rsv_ne_zero (h : (fieldsOf v).rsv ≠ 0) : decode v = .rejected .reservedNonzero := if_pos h

/-- With RSV = 0 the case over OP decides (R87). -/
theorem decode_of_rsv_eq_zero (h : (fieldsOf v).rsv = 0) : decode v = decodeOp (fieldsOf v).op (fieldsOf v).data :=
  if_neg (not_not.mpr h)

theorem decode_packWord (op d : Byte) : decode (packWord op d) = decodeOp op d := by
  have hf := fieldsOf_packWord op d
  rw [decode_of_rsv_eq_zero (by rw [hf]), hf]

/-- R86. -/
theorem decodeOp_of_unassigned (hdataless : op ∉ datalessOps) (hbyte : op ∉ byteOps) :
    decodeOp op d = .rejected .illegalOpcode := by
  simp only [datalessOps, byteOps, List.mem_cons, List.not_mem_nil, or_false, not_or] at hdataless hbyte
  obtain ⟨h01, h11, h21, h23⟩ := hdataless
  obtain ⟨h02, h12, h22⟩ := hbyte
  rw [decodeOp, if_neg h01, if_neg h02, if_neg h11, if_neg h12, if_neg h21, if_neg h22, if_neg h23]

/-- R84. -/
theorem decodeOp_of_data_ne_zero (hop : op ∈ datalessOps) (hd : d ≠ 0) :
    decodeOp op d = .rejected .reservedNonzero := by
  simp only [datalessOps, List.mem_cons, List.not_mem_nil, or_false] at hop
  obtain rfl | rfl | rfl | rfl := hop <;> exact if_pos hd

theorem decodeOp_of_dataless (hop : op ∈ datalessOps) : ∃ i, decodeOp op 0 = .command i ∧ packWord op 0 = encode i := by
  simp only [datalessOps, List.mem_cons, List.not_mem_nil, or_false] at hop
  obtain rfl | rfl | rfl | rfl := hop <;> exact ⟨_, rfl, rfl⟩

theorem decodeOp_of_byteOp (hop : op ∈ byteOps) (d : Byte) :
    ∃ i, decodeOp op d = .command i ∧ packWord op d = encode i := by
  simp only [byteOps, List.mem_cons, List.not_mem_nil, or_false] at hop
  obtain rfl | rfl | rfl := hop <;> exact ⟨_, rfl, rfl⟩

theorem decodeOp_eq_illegalOpcode_iff :
    decodeOp op 0 = .rejected .illegalOpcode ↔ op ∉ datalessOps ∧ op ∉ byteOps := by
  constructor
  · intro h
    constructor <;> intro hop
    · obtain ⟨i, hi, -⟩ := decodeOp_of_dataless hop
      cases hi.symm.trans h
    · obtain ⟨i, hi, -⟩ := decodeOp_of_byteOp hop 0
      cases hi.symm.trans h
  · rintro ⟨hdataless, hbyte⟩
    exact decodeOp_of_unassigned hdataless hbyte

/-- A well-formed word decodes to a command, and is that command's word. -/
theorem decode_of_wellFormed (h : (fieldsOf v).wellFormed = true) : ∃ i, decode v = .command i ∧ v = encode i := by
  obtain ⟨hrsv, hop, hdata⟩ := wellFormed_iff.mp h
  have hv : v = packWord (fieldsOf v).op (fieldsOf v).data := by
    conv_lhs => rw [← cmdWord_fieldsOf v, hrsv]
    rfl
  rw [hv, decode_packWord]
  obtain hop | hop := hop
  · rw [hdata hop]
    exact decodeOp_of_dataless hop
  · exact decodeOp_of_byteOp hop _

/-- A word that is not well formed fails one of the three checks. -/
theorem decode_of_not_wellFormed (h : (fieldsOf v).wellFormed ≠ true) : ∃ e, decode v = .rejected e := by
  by_cases hrsv : (fieldsOf v).rsv = 0
  case neg => exact ⟨_, decode_of_rsv_ne_zero hrsv⟩
  rw [decode_of_rsv_eq_zero hrsv]
  by_cases hdataless : (fieldsOf v).op ∈ datalessOps
  · have hdata : (fieldsOf v).data ≠ 0 := fun hd => h (wellFormed_iff.mpr ⟨hrsv, .inl hdataless, fun _ => hd⟩)
    exact ⟨_, decodeOp_of_data_ne_zero hdataless hdata⟩
  · have hbyte : (fieldsOf v).op ∉ byteOps := fun hop =>
      h (wellFormed_iff.mpr ⟨hrsv, .inr hop, fun hd => absurd hd hdataless⟩)
    exact ⟨_, decodeOp_of_unassigned hdataless hbyte⟩

theorem wellFormed_of_decode (h : decode v = .command i) : (fieldsOf v).wellFormed = true := by
  by_contra hwf
  obtain ⟨e, he⟩ := decode_of_not_wellFormed hwf
  cases h.symm.trans he

end

/-- R82: each command reads back from its word. -/
@[simp] theorem decode_encode (i : Instr) : decode (encode i) = .command i := by
  cases i with
  | crcInit => exact Laws.RoundTrip.crcInit
  | crcByte d => exact Laws.RoundTrip.crcByte d
  | adlInit => exact Laws.RoundTrip.adlInit
  | adlByte d => exact Laws.RoundTrip.adlByte d
  | frmStart => exact Laws.RoundTrip.frmStart
  | frmByte d => exact Laws.RoundTrip.frmByte d
  | frmEnd => exact Laws.RoundTrip.frmEnd

/-- Settles O2: only a well-formed word decodes, and it is the word of the command it decodes to. -/
theorem decodeExactlyInvertsEncode : Obligations.DecodeExactlyInvertsEncode := by
  intro v i
  constructor
  · intro h
    obtain ⟨j, hj, hv⟩ := decode_of_wellFormed (wellFormed_of_decode h)
    cases h.symm.trans hj
    exact hv
  · rintro rfl
    exact decode_encode i

/-- Settles O3: the three failing checks one by one, and every word fails one of them or is a command's word. -/
theorem malformedWordsAreRejected : Obligations.MalformedWordsAreRejected := by
  refine ⟨fun rsv op d hrsv => ?reserved, fun op d hop => ?unassigned, fun op d hop hd => ?data, fun v => ⟨?_, ?_⟩⟩
  case reserved => exact decode_of_rsv_ne_zero (by rwa [fieldsOf_cmdWord])
  case unassigned =>
    have dataless : datalessOps ⊆ [0x01, 0x02, 0x11, 0x12, 0x21, 0x22, 0x23] := by decide
    have byte : byteOps ⊆ [0x01, 0x02, 0x11, 0x12, 0x21, 0x22, 0x23] := by decide
    exact (decode_packWord op d).trans (decodeOp_of_unassigned (fun h => hop (dataless h)) fun h => hop (byte h))
  case data => exact (decode_packWord op d).trans (decodeOp_of_data_ne_zero hop hd)
  · intro h
    obtain ⟨i, hi, -⟩ := decode_of_wellFormed h
    exact ⟨i, hi⟩
  · rintro ⟨i, hi⟩
    exact wellFormed_of_decode hi

/-- Settles O1: seven words are the encodings of their commands, and each of the others fails one check. -/
theorem specWordsDecodeAsTabled : Obligations.SpecWordsDecodeAsTabled :=
  ⟨decode_encode .crcInit, decode_encode (.crcByte 0x31), decode_encode .adlInit, decode_encode (.adlByte 0xff),
    decode_encode .frmStart, decode_encode (.frmByte 0x41), decode_encode .frmEnd,
    (decode_packWord 0x00 0x00).trans (decodeOp_of_unassigned (by decide) (by decide)),
    decode_of_rsv_ne_zero (by decide),
    (decode_packWord 0x01 0x05).trans (decodeOp_of_data_ne_zero (by decide) (by decide))⟩

/-- Settles O4: an OP is unassigned exactly if neither table of opcodes lists it. -/
theorem unassignedOpcodesAre249 : Obligations.UnassignedOpcodesAre249 := by
  have illegal_iff (op : Byte) :
      decode (cmdWord 0 op 0) = .rejected .illegalOpcode ↔ op ∉ datalessOps ∧ op ∉ byteOps := by
    rw [← decodeOp_eq_illegalOpcode_iff, ← decode_packWord]
    rfl
  constructor
  · simp only [illegal_iff]
    decide +kernel
  · exact (illegal_iff 0x00).mpr (by decide)

end Sys2Proof

namespace Sys2Proof.Machine

/-! ## Running words (30_encoding.md R87, R88) -/

/-- The word of a command runs it, in a locked state too (60_exceptions.md R175). -/
theorem commandStep_encode (i : Instr) (s : State) : commandStep (encode i) s = exec i s := by
  cases he : s.err with
  | true =>
    rw [exec_locked he]
    exact if_pos he
  | false => exact commandStep_command he (decode_encode i)

/-- Settles O5, by induction on the list of commands. -/
theorem wordsRunAsTheirCommands : Obligations.WordsRunAsTheirCommands := by
  intro is
  induction is with
  | nil => exact fun _ => rfl
  | cons i is ih =>
    intro s
    simp only [List.map_cons, commandSteps, execAll, commandStep_encode]
    cases exec i s with
    | next t => exact ih t
    | fault r => rfl
    | refused r => rfl

/-- Settles O28: the accepted write is a command step, which carries out the decoded command. -/
theorem stepRunsTheDecodedCommand : Obligations.StepRunsTheDecodedCommand := by
  intro s s1 a v i turn target write hq he hd
  obtain ⟨e, rfl, -⟩ := turn.eq_setEnv
  refine ⟨⟨e, rfl⟩, ?_⟩
  calc step s
    _ = performAccess .cmd a.op (s.setEnv e) := turn.step_accepted target hq
    _ = commandStep v (s.setEnv e) := by rw [write]; rfl
    _ = exec i (s.setEnv e) := commandStep_command he hd

end Sys2Proof.Machine
end

section
/-! PROOFS. The assembly language of 30_encoding.md R88 and R89: the byte of each operand and item, and the commands and
accesses of each statement. -/

namespace Sys2Proof.Machine

/-! ## Operands and items -/

theorem byteOf_of_le {n : Nat} (h : n ≤ 255) : byteOf n = some (BitVec.ofNat 8 n) := if_pos h

theorem byteOf_of_gt {n : Nat} (h : 255 < n) : byteOf n = none := if_neg (Nat.not_le.mpr h)

/-- A quoted character stands for its code if it is printable and neither the closing quote nor `\` (R88, R89). -/
theorem quotedByte_eq (quote c : Nat) : (if printable c && c != quote && c != 92 then byteOf c else none)
    = if 32 ≤ c ∧ c ≤ 126 ∧ c ≠ quote ∧ c ≠ 92 then some (BitVec.ofNat 8 c) else none := by
  have writable : (printable c && c != quote && c != 92) = true ↔ 32 ≤ c ∧ c ≤ 126 ∧ c ≠ quote ∧ c ≠ 92 := by
    simp [printable, and_assoc]
  by_cases h : 32 ≤ c ∧ c ≤ 126 ∧ c ≠ quote ∧ c ≠ 92
  · rw [if_pos (writable.mpr h), if_pos h, byteOf_of_le (by omega)]
  · rw [if_neg (mt writable.mp h), if_neg h]

theorem AsmOperand.value_chr (c : Nat) : (AsmOperand.chr c).value
    = if 32 ≤ c ∧ c ≤ 126 ∧ c ≠ 39 ∧ c ≠ 92 then some (BitVec.ofNat 8 c) else none :=
  quotedByte_eq 39 c

theorem StrItem.value_chr (c : Nat) : (StrItem.chr c).value
    = if 32 ≤ c ∧ c ≤ 126 ∧ c ≠ 34 ∧ c ≠ 92 then some (BitVec.ofNat 8 c) else none :=
  quotedByte_eq 34 c

theorem AsmOperand.value_chr_accepted {c : Nat} (low : 32 ≤ c) (high : c ≤ 126) (hquote : c ≠ 39) (hslash : c ≠ 92) :
    (AsmOperand.chr c).value = some (BitVec.ofNat 8 c) :=
  (value_chr c).trans (if_pos ⟨low, high, hquote, hslash⟩)

theorem AsmOperand.value_chr_refused {c : Nat} (h : c < 32 ∨ 126 < c ∨ c = 39 ∨ c = 92) :
    (AsmOperand.chr c).value = none :=
  (value_chr c).trans (if_neg (by omega))

/-! ## All the bytes of a statement -/

theorem allBytes_map_some (bs : List Byte) : allBytes (bs.map some) = some bs := by
  induction bs with
  | nil => rfl
  | cons b bs ih => simp [allBytes, ih]

theorem allBytes_of_none_mem {os : List (Option Byte)} (h : none ∈ os) : allBytes os = none := by
  induction os with
  | nil => cases h
  | cons o os ih =>
    cases o with
    | none => rfl
    | some b => simp [allBytes, ih (by simpa using h)]

theorem allBytes_map_of_refused {α : Type} {value : α → Option Byte} {xs : List α} (h : ∃ x ∈ xs, value x = none) :
    allBytes (xs.map value) = none :=
  allBytes_of_none_mem (List.mem_map.mpr h)

/-! ## The word of a byte command -/

/-- OP stands above DATA (30_encoding.md R80). -/
theorem packWord_ofNat (op : Byte) {n : Nat} (h : n ≤ 255) :
    packWord op (BitVec.ofNat 8 n) = BitVec.ofNat 32 (256 * op.toNat + n) := by
  have hop := op.isLt
  apply BitVec.eq_of_toNat_eq
  simp only [packWord, cmdWord, BitVec.toNat_append, BitVec.ofNat_eq_ofNat, BitVec.toNat_ofNat]
  rw [← Nat.shiftLeft_add_eq_or_of_lt (by omega), ← Nat.shiftLeft_add_eq_or_of_lt (by omega)]
  simp only [Nat.shiftLeft_eq]
  omega

/-- The words of the byte commands (30_encoding.md R82), with the first word of each unit. -/
theorem commandAccess_byteInstr {u : AsmUnit} {first n : Nat}
    (hu : (u, first) ∈ [(AsmUnit.crc, 0x200), (.adl, 0x1200), (.frm, 0x2200)]) (h : n ≤ 255) :
    commandAccess (byteInstr u (BitVec.ofNat 8 n)) = busWrite .cmd (BitVec.ofNat 32 (first + n)) := by
  simp only [List.mem_cons, List.not_mem_nil, or_false, Prod.mk.injEq] at hu
  obtain ⟨rfl, rfl⟩ | ⟨rfl, rfl⟩ | ⟨rfl, rfl⟩ := hu <;> exact congrArg (busWrite .cmd) (packWord_ofNat _ h)

/-! ## Statements -/

theorem Stmt.accesses_of_refused {s : Stmt} (h : s.commands = none) : s.accesses = none := by
  cases s with
  | read r => cases h
  | start u | byte u o | finish | str u items | bytes u os | whole u items => simp only [accesses, h, Option.map_none]

theorem Stmt.accesses_byte_accepted {o : AsmOperand} {d : Byte} (h : o.value = some d) (u : AsmUnit) :
    (Stmt.byte u o).accesses = some [commandAccess (byteInstr u d)] := by
  simp [accesses, commands, h]

theorem Stmt.accesses_byte_refused {o : AsmOperand} (h : o.value = none) (u : AsmUnit) :
    (Stmt.byte u o).accesses = none :=
  accesses_of_refused (by simp [commands, h])

/-- Settles O51: a byte statement writes the word of its operand's value, and is refused with its operand. -/
theorem statementsMeanTheirAccesses : Obligations.StatementsMeanTheirAccesses := by
  refine ⟨by decide, by decide, by decide, by decide, fun u first n hu => ⟨fun hn => ?number, fun hn => ?tooLarge,
    fun low high hquote hslash => ?character, fun hn => ?unwritable⟩, fun n hn => ⟨byteOf_of_le hn, byteOf_of_le hn⟩,
    fun n hn => ⟨byteOf_of_gt hn, byteOf_of_gt hn⟩, fun c => AsmOperand.value_chr_accepted,
    fun c => AsmOperand.value_chr_refused, fun r hr => ?read, rfl⟩
  case number =>
    rw [← commandAccess_byteInstr hu hn]
    exact ⟨Stmt.accesses_byte_accepted (o := .dec n) (byteOf_of_le hn) u,
      Stmt.accesses_byte_accepted (o := .hex n) (byteOf_of_le hn) u⟩
  case tooLarge =>
    exact ⟨Stmt.accesses_byte_refused (o := .dec n) (byteOf_of_gt hn) u,
      Stmt.accesses_byte_refused (o := .hex n) (byteOf_of_gt hn) u⟩
  case character =>
    rw [← commandAccess_byteInstr hu (by omega)]
    exact Stmt.accesses_byte_accepted (AsmOperand.value_chr_accepted low high hquote hslash) u
  case unwritable => exact Stmt.accesses_byte_refused (AsmOperand.value_chr_refused hn) u
  case read =>
    cases r with
    | cmd => exact absurd rfl hr
    | status | crcResult | adlerResult => rfl

/-- Settles O52: a statement expands by the bytes of all its items, or is refused with one of them. -/
theorem pseudoInstructionsExpand : Obligations.PseudoInstructionsExpand := by
  refine ⟨fun items bs hbs => ?strings, fun os bs hbs u => ?operands,
    fun c low high hquote hslash => (StrItem.value_chr c).trans (if_pos ⟨low, high, hquote, hslash⟩),
    fun c hc => (StrItem.value_chr c).trans (if_neg (by omega)), fun n => ⟨byteOf_of_le, byteOf_of_gt⟩,
    fun items u hrefused => ?stringRefused, fun os u hrefused => ?operandRefused⟩
  case strings =>
    have hall : allBytes (items.map StrItem.value) = some bs := hbs ▸ allBytes_map_some bs
    simp [Stmt.commands, hall, startInstr, byteInstr, finishInstrs, frameCommands]
  case operands =>
    have hall : allBytes (os.map AsmOperand.value) = some bs := hbs ▸ allBytes_map_some bs
    simp [Stmt.commands, hall]
  case stringRefused =>
    have hall : allBytes (items.map StrItem.value) = none := allBytes_map_of_refused hrefused
    constructor <;> exact Stmt.accesses_of_refused (by simp [Stmt.commands, hall])
  case operandRefused =>
    have hall : allBytes (os.map AsmOperand.value) = none := allBytes_map_of_refused hrefused
    exact Stmt.accesses_of_refused (by simp [Stmt.commands, hall])

end Sys2Proof.Machine
end

section
/-! PROOFS. The CRC unit of 40_crc32.md: its bit step, its two commands, its result law, and that commands of different units
commute. -/

namespace Sys2Proof.Machine

/-! ## The CRC functions (40_crc32.md R100, R101, R104) -/

/-- One bit step as a shift and a masked exclusive or; above bit 31 both sides are 0. -/
theorem crcStep1_getLsbD (c : Word) (i : Nat) :
    (crcStep1 c).getLsbD i = (c.getLsbD (i + 1) ^^ (c.getLsbD 0 && crcPoly.getLsbD i)) := by
  unfold crcStep1
  split
  · rename_i h
    rw [h, BitVec.getLsbD_xor, BitVec.getLsbD_ushiftRight, Nat.add_comm, Bool.true_and]
  · rename_i h
    rw [Bool.eq_false_iff.mpr h, BitVec.getLsbD_ushiftRight, Nat.add_comm, Bool.false_and, Bool.xor_false]

/-- Settles O8: nothing stands above bit 31 to be shifted into it, and the polynomial has bit 31 set. -/
theorem crcStepFeedsBackTheBitShiftedOut : Obligations.CrcStepFeedsBackTheBitShiftedOut := by
  refine fun c => ⟨?_, fun i _ => crcStep1_getLsbD c i⟩
  have shiftedIn : c.getLsbD 32 = false := BitVec.getLsbD_of_ge c 32 (Nat.le_refl 32)
  have top : crcPoly.getLsbD 31 = true := by decide
  rw [crcStep1_getLsbD, shiftedIn, top, Bool.false_xor, Bool.and_true]

/-- Settles O6 by computing both values. -/
theorem crcCheckValues : Obligations.CrcCheckValues := ⟨rfl, by decide +kernel⟩

/-! ## Malformed words (30_encoding.md R84, R85; 60_exceptions.md R174) -/

theorem rejects_of_decode {v : Word} {e : CmdError} (h : decode v = .rejected e) : Rejects v (CmdError.code e) := by
  intro s he
  simp only [commandStep, he, h]
  rfl

theorem rejects_of_rsv_ne_zero {rsv : Half} (h : rsv ≠ 0) (op d : Byte) : Rejects (cmdWord rsv op d) 0x2 :=
  rejects_of_decode (e := .reservedNonzero) (decode_of_rsv_ne_zero (by rwa [fieldsOf_cmdWord]))

theorem rejects_of_dataless {op : Byte} (hop : op ∈ datalessOps) {rsv : Half} {d : Byte} (h : rsv ≠ 0 ∨ d ≠ 0) :
    Rejects (cmdWord rsv op d) 0x2 := by
  by_cases hrsv : rsv = 0
  · subst hrsv
    have hd : d ≠ 0 := h.resolve_left (not_not.mpr rfl)
    exact rejects_of_decode (e := .reservedNonzero) ((decode_packWord op d).trans (decodeOp_of_data_ne_zero hop hd))
  · exact rejects_of_rsv_ne_zero hrsv op d

/-! ## The two commands -/

/-- Settles O10: the next state differs in CRC_STATE and CRC_SEEN only, and neither new value depends on the old one. -/
theorem crcInitStartsANewCrc : Obligations.CrcInitStartsANewCrc := by
  refine ⟨rfl, fun s he => ?completes, crcCheckValues.1, fun rsv d => rejects_of_dataless (by decide),
    fun s he => exec_locked he _⟩
  case completes =>
    exact ⟨_, exec_crcInit he, rfl, crcCheckValues.1, rfl, rfl, exec_crcInit he, ⟨rfl, rfl, rfl⟩,
      s.sameFramer_self, ⟨rfl, rfl⟩, ⟨rfl, rfl, rfl⟩, rfl⟩

/-- Settles O11: the next state differs in CRC_STATE and CRC_SEEN only. -/
theorem crcByteFeedsOneByte : Obligations.CrcByteFeedsOneByte := by
  have example31 : crcUpdate8 crcOnes 0x31 = 0x7C231048 := by decide +kernel
  refine ⟨fun _ => rfl, fun s d he => ?completes, rfl, example31, by decide, ?crc32, by decide +kernel,
    fun rsv d hrsv => rejects_of_rsv_ne_zero hrsv _ d, fun d s he => exec_locked he _⟩
  case completes =>
    exact ⟨_, exec_crcByte he d, rfl, rfl, rfl, ⟨rfl, rfl, rfl⟩, s.sameFramer_self, ⟨rfl, rfl⟩, ⟨rfl, rfl, rfl⟩, rfl⟩
  case crc32 =>
    calc crc32 [0x31]
      _ = crcUpdate8 crcOnes 0x31 ^^^ crcOnes := rfl
      _ = 0x83DCEFB7 := by rw [example31]; decide

section
variable {s t u : State} {i j : Instr}

/-! ## Runs of commands that leave the block unlocked (60_exceptions.md R175) -/

theorem unlocked_of_exec (hx : exec i s = .next t) (ht : t.err = false) : s.err = false := by
  by_contra he
  rw [exec_locked (eq_true_of_ne_false he)] at hx
  cases hx
  exact he ht

theorem execAll_cons_eq_next {is : List Instr} (hx : execAll (i :: is) s = .next u) :
    ∃ t, exec i s = .next t ∧ execAll is t = .next u := by
  unfold execAll at hx
  split at hx
  · rename_i t hi
    exact ⟨t, hi, hx⟩
  all_goals cases hx

theorem execAll_cons_of_exec (hi : exec i s = .next t) (is : List Instr) : execAll (i :: is) s = execAll is t := by
  simp only [execAll, hi]

theorem unlocked_of_execAll {is : List Instr} (hx : execAll is s = .next t) (ht : t.err = false) : s.err = false := by
  by_contra he
  rw [execAll_locked (eq_true_of_ne_false he)] at hx
  cases hx
  exact he ht

/-! ## The result law (40_crc32.md R109) -/

/-- CRC.BYTE alone feeds the CRC unit, and all but CRC.INIT leave it otherwise as it was (40_crc32.md R107). -/
theorem crcState_of_exec (he : s.err = false) (hi : i ≠ .crcInit) (hx : exec i s = .next t) :
    t.crcState = crcRun s.crcState (crcData i).toList := by
  cases exec_cases he hx with
  | crcInit => exact absurd rfl hi
  | crcByte | adlInit | adlByte | frmStart | frmStartFails | frmByteFails | frmEndFails => rfl
  | frmByte d => exact flushFull_crcState s
  | frmEnd => exact closeFrame_crcState s

theorem filterMap_crcData_cons (i : Instr) (is : List Instr) :
    (i :: is).filterMap crcData = (crcData i).toList ++ is.filterMap crcData := by
  cases h : crcData i <;> simp [h]

theorem filterMap_crcData_crcBytes (bs : List Byte) : (bs.map Instr.crcByte).filterMap crcData = bs := by
  rw [List.filterMap_map]
  exact List.filterMap_some

/-- Along a run that ends unlocked CRC_STATE takes exactly the bytes of its CRC.BYTEs, in order. -/
theorem crcState_of_execAll {is : List Instr} (hinit : .crcInit ∉ is) (hx : execAll is s = .next t)
    (ht : t.err = false) : t.crcState = crcRun s.crcState (is.filterMap crcData) := by
  induction is generalizing s with
  | nil => cases hx; rfl
  | cons i is ih =>
    obtain ⟨s1, hi, his⟩ := execAll_cons_eq_next hx
    have he : s.err = false := unlocked_of_execAll hx ht
    rw [List.mem_cons, not_or] at hinit
    rw [ih hinit.2 his, crcState_of_exec he (Ne.symm hinit.1) hi, filterMap_crcData_cons, crcRun_append]

theorem crcResult_of_execAll {is : List Instr} (hs : s.crcState = crcOnes) (hinit : .crcInit ∉ is)
    (hx : execAll is s = .next t) (ht : t.err = false) : readReg .crcResult t = crc32 (is.filterMap crcData) := by
  simp only [readReg, crcResultWord, crcState_of_execAll hinit hx ht, hs, crc32]

theorem execAll_crcBytes_completes (he : s.err = false) (bs : List Byte) :
    ∃ t, execAll (bs.map .crcByte) s = .next t ∧ t.err = false := by
  induction bs generalizing s with
  | nil => exact ⟨s, rfl, he⟩
  | cons d bs ih =>
    rw [List.map_cons, execAll_cons_of_exec (exec_crcByte he d)]
    exact ih he

theorem crcResult_of_crcBytes (hs : s.crcState = crcOnes) (he : s.err = false) (bs : List Byte) :
    ∃ t, execAll (bs.map .crcByte) s = .next t ∧ t.err = false ∧ readReg .crcResult t = crc32 bs := by
  obtain ⟨t, hx, ht⟩ := execAll_crcBytes_completes he bs
  refine ⟨t, hx, ht, ?_⟩
  rw [crcResult_of_execAll hs (by simp) hx ht, filterMap_crcData_crcBytes]

/-! ## Independence of the units (40_crc32.md R107, 41_adler32.md R127, 42_framer.md R156)

A CRC or Adler command is one update of the state, and a command of another unit answers the same before and
after it. -/

/-- What a CRC or Adler command does to an unlocked block (`exec_eq_checksumUpdate`). The framer's commands are no such
update, and the identity stands for them. -/
def checksumUpdate (i : Instr) (s : State) : State :=
  match i with
  | .crcInit   => (s.setCrcState crcOnes).setGhost { s.ghost with crcSeen := [] }
  | .crcByte d => (s.setCrcState (crcUpdate8 s.crcState d)).setGhost { s.ghost with crcSeen := s.ghost.crcSeen ++ [d] }
  | .adlInit   => (s.setAdl adlInitial).setGhost { s.ghost with adlSeen := [] }
  | .adlByte d =>
    (s.setAdl (adlUpdate (s.adlA, s.adlB) d)).setGhost { s.ghost with adlSeen := s.ghost.adlSeen ++ [d] }
  | .frmStart | .frmByte _ | .frmEnd => s

theorem exec_eq_unlessLocked (hi : unitOf i ≠ .frm) (s : State) :
    exec i s = unlessLocked s (.next (checksumUpdate i s)) := by
  cases i with
  | crcInit | crcByte | adlInit | adlByte => rfl
  | frmStart | frmByte | frmEnd => exact absurd rfl hi

theorem exec_eq_checksumUpdate (hi : unitOf i ≠ .frm) (he : s.err = false) : exec i s = .next (checksumUpdate i s) :=
  (exec_eq_unlessLocked hi s).trans (unlessLocked_unlocked he _)

@[simp] theorem checksumUpdate_err (i : Instr) (s : State) : (checksumUpdate i s).err = s.err := by cases i <;> rfl
@[simp] theorem checksumUpdate_frmOpen (i : Instr) (s : State) : (checksumUpdate i s).frmOpen = s.frmOpen := by
  cases i <;> rfl
@[simp] theorem checksumUpdate_frmCount (i : Instr) (s : State) : (checksumUpdate i s).frmCount = s.frmCount := by
  cases i <;> rfl

/-! The update commutes with the update of another unit and with each operation of the framer. -/

theorem checksumUpdate_comm (h : unitOf i ≠ unitOf j) (s : State) :
    checksumUpdate j (checksumUpdate i s) = checksumUpdate i (checksumUpdate j s) := by
  cases i with
  | crcInit | crcByte =>
    cases j with
    | crcInit | crcByte => exact absurd rfl h
    | adlInit | adlByte | frmStart | frmByte | frmEnd => rfl
  | adlInit | adlByte =>
    cases j with
    | adlInit | adlByte => exact absurd rfl h
    | crcInit | crcByte | frmStart | frmByte | frmEnd => rfl
  | frmStart | frmByte | frmEnd => rfl

theorem raiseError_checksumUpdate (e : CmdError) (i : Instr) (s : State) :
    raiseError e (checksumUpdate i s) = checksumUpdate i (raiseError e s) := by
  cases i <;> rfl

theorem openFrame_checksumUpdate (i : Instr) (s : State) :
    openFrame (checksumUpdate i s) = checksumUpdate i (openFrame s) := by
  cases i <;> rfl

theorem flushFull_checksumUpdate (i : Instr) (s : State) :
    flushFull (checksumUpdate i s) = checksumUpdate i (flushFull s) := by
  by_cases hc : s.frmCount = fullCount
  · rw [flushFull_full hc, flushFull_full ((checksumUpdate_frmCount i s).trans hc)]
    cases i <;> rfl
  · rw [flushFull_notFull hc, flushFull_notFull fun h => hc ((checksumUpdate_frmCount i s).symm.trans h)]

theorem storeByte_checksumUpdate (d : Byte) (i : Instr) (s : State) :
    storeByte d (checksumUpdate i s) = checksumUpdate i (storeByte d s) := by
  cases i <;> rfl

theorem closeFrame_checksumUpdate (i : Instr) (s : State) :
    closeFrame (checksumUpdate i s) = checksumUpdate i (closeFrame s) := by
  have collected (n : Nat) : bufTake (checksumUpdate i s) n = bufTake s n := by cases i <;> rfl
  have sums : joinHalves (checksumUpdate i s).frmB (checksumUpdate i s).frmA = joinHalves s.frmB s.frmA := by
    cases i <;> rfl
  simp only [closeFrame, emitBlock_eq, emitSeq_append, emitSeq_frmA, emitSeq_frmB, collected, sums,
    checksumUpdate_frmCount]
  -- The emitted bytes are large terms; as a variable they keep the comparison of the two states cheap.
  generalize block true (bufTake s s.frmCount.toNat) ++ be32 (joinHalves s.frmB s.frmA) = bs
  cases i <;> rfl

theorem Result.Match.next_left {R : State → State → Prop} {r r' : Result} (h : Result.Match R r r')
    (hr : r = .next s) : ∃ t, r' = .next t ∧ R s t := by
  subst hr
  cases h with
  | next hst => exact ⟨_, rfl, hst⟩

theorem Result.Match.next_right {R : State → State → Prop} {r r' : Result} (h : Result.Match R r r')
    (hr : r' = .next t) : ∃ s, r = .next s ∧ R s t := by
  subst hr
  cases h with
  | next hst => exact ⟨_, rfl, hst⟩

/-- Two answers of one kind, with the same reason or with next states that differ by the update of command i. -/
abbrev AnswersUpToUpdate (i : Instr) : Result → Result → Prop := Result.Match fun s t => t = checksumUpdate i s

theorem unlessLocked_checksumUpdate {r r' : Result} (hr : AnswersUpToUpdate i r r') (s : State) :
    AnswersUpToUpdate i (unlessLocked s r) (unlessLocked (checksumUpdate i s) r') := by
  unfold unlessLocked
  rw [checksumUpdate_err]
  split
  · exact .next rfl
  · exact hr

theorem withinBuffer_checksumUpdate (hu : u = checksumUpdate i t) (s : State) :
    AnswersUpToUpdate i (withinBuffer s t) (withinBuffer (checksumUpdate i s) u) := by
  unfold withinBuffer
  rw [checksumUpdate_frmCount]
  split
  · exact .fault _
  · exact .next hu

/-- A command of another unit answers as without the update, and keeps it. -/
theorem exec_checksumUpdate (h : unitOf i ≠ unitOf j) (s : State) :
    AnswersUpToUpdate i (exec j s) (exec j (checksumUpdate i s)) := by
  cases j with
  | crcInit | crcByte | adlInit | adlByte =>
    exact unlessLocked_checksumUpdate (.next (checksumUpdate_comm h s)) s
  | frmStart =>
    refine unlessLocked_checksumUpdate (.next ?_) s
    rw [checksumUpdate_frmOpen]
    split
    · exact raiseError_checksumUpdate _ i s
    · exact openFrame_checksumUpdate i s
  | frmByte d =>
    refine unlessLocked_checksumUpdate ?_ s
    rw [checksumUpdate_frmOpen]
    split
    · refine withinBuffer_checksumUpdate ?_ s
      rw [flushFull_checksumUpdate, storeByte_checksumUpdate]
    · exact .next (raiseError_checksumUpdate _ i s)
  | frmEnd =>
    refine unlessLocked_checksumUpdate ?_ s
    rw [checksumUpdate_frmOpen]
    split
    · exact withinBuffer_checksumUpdate (closeFrame_checksumUpdate i s) s
    · exact .next (raiseError_checksumUpdate _ i s)

end

/-- Settles O41: CRC.INIT and reset both leave CRC_STATE = 0xFFFFFFFF, from where it takes the bytes of the CRC.BYTEs. -/
theorem crcResultLaw : Obligations.CrcResultLaw := by
  refine ⟨fun s bs he => ?bytes, fun s t is he hinit hx ht => ?mixed,
    fun s bs => crcResult_of_crcBytes (s := resetEvent s) rfl rfl bs,
    fun s t is hinit hx ht => crcResult_of_execAll (s := resetEvent s) rfl hinit hx ht, fun s d he => exec_locked he _⟩
  case bytes =>
    rw [execAll_cons_of_exec (exec_crcInit he)]
    refine crcResult_of_crcBytes ?_ ?_ bs
    · rfl
    · exact he
  case mixed =>
    rw [execAll_cons_of_exec (exec_crcInit he)] at hx
    exact crcResult_of_execAll rfl hinit hx ht

/-- Settles O45: one of the two is a CRC or Adler command, whose update the other one keeps. -/
theorem commandsOfDifferentUnitsCommute : Obligations.CommandsOfDifferentUnitsCommute := by
  intro s t u i j hij hi hj hu
  have ht : t.err = false := unlocked_of_exec hj hu
  have hs : s.err = false := unlocked_of_exec hi ht
  by_cases hfrm : unitOf i = .frm
  · have hchecksum : unitOf j ≠ .frm := hfrm ▸ hij.symm
    cases (exec_eq_checksumUpdate hchecksum ht).symm.trans hj
    obtain ⟨_, hi', rfl⟩ := (exec_checksumUpdate hij.symm s).next_left hi
    exact ⟨checksumUpdate j s, exec_eq_checksumUpdate hchecksum hs, hi'⟩
  · cases (exec_eq_checksumUpdate hfrm hs).symm.trans hi
    obtain ⟨t', hj', rfl⟩ := (exec_checksumUpdate hij s).next_right hj
    rw [checksumUpdate_err] at hu
    exact ⟨t', hj', exec_eq_checksumUpdate hfrm hu⟩

end Sys2Proof.Machine
end

section
/-! PROOFS. The Adler unit of 41_adler32.md: its update, its two commands and its result law. -/

namespace Sys2Proof.Machine

/-! ## The Adler functions (41_adler32.md R120, R121, R124, R125, R128) -/

/-- Two reduced summands come to less than twice the modulus, so the sum holds it at most once (41_adler32.md R124). -/
theorem add_mod_adlMod {x y : Nat} (hx : x < adlMod) (hy : y < adlMod) :
    (x + y) % adlMod = if adlMod ≤ x + y then x + y - adlMod else x + y := by
  rw [Nat.add_mod_eq_ite, Nat.mod_eq_of_lt hx, Nat.mod_eq_of_lt hy]

theorem byte_lt_adlMod (d : Byte) : d.toNat < adlMod := Nat.lt_trans d.isLt (by decide)

/-- Settles O9: a reduced sum takes a byte, then the other one takes the new sum; both summands are reduced each time. -/
theorem adlerUpdateIsOneConditionalSubtraction : Obligations.AdlerUpdateIsOneConditionalSubtraction := by
  intro a b d ha hb a' b'
  obtain ⟨ha', hb'⟩ : a' < 65521 ∧ b' < 65521 := adlUpdate_lt (a, b) d
  have hd : d.toNat < 256 := d.isLt
  refine ⟨?sumA, ?sumB, by omega, by omega, ha', hb'⟩
  case sumA => exact (adlUpdate_fst_toNat (a, b) d).trans (add_mod_adlMod ha (byte_lt_adlMod d))
  case sumB => exact (adlUpdate_snd_toNat (a, b) d).trans (add_mod_adlMod hb ha')

/-- A zero byte leaves a reduced first sum as it was (41_adler32.md R123). -/
theorem adlUpdate_zero_fst {p : Half × Half} (h : p.1.toNat < adlMod) : (adlUpdate p 0).1 = p.1 := by
  apply BitVec.eq_of_toNat_eq
  rw [adlUpdate_fst_toNat]
  exact Nat.mod_eq_of_lt h

/-- The first sum starts over at 0 where it meets the modulus (41_adler32.md R123). -/
theorem adlUpdate_fst_of_sum_eq_adlMod {p : Half × Half} {d : Byte} (h : p.1.toNat + d.toNat = adlMod) :
    (adlUpdate p d).1 = 0 := by
  apply BitVec.eq_of_toNat_eq
  rw [adlUpdate_fst_toNat, h, Nat.mod_self]
  rfl

/-- Settles O7 by computing both values. -/
theorem adlerCheckValues : Obligations.AdlerCheckValues := ⟨rfl, by decide⟩

/-! ## The two commands -/

/-- Settles O12: the next state differs in ADL_A, ADL_B and ADL_SEEN only, and has the sums of the empty sequence. -/
theorem adlInitStartsANewAdler : Obligations.AdlInitStartsANewAdler := by
  refine ⟨rfl, fun s he => ?completes, adlerCheckValues.1, fun rsv d => rejects_of_dataless (by decide),
    fun s he => exec_locked he _⟩
  case completes =>
    exact ⟨_, exec_adlInit he, rfl, rfl, adlerCheckValues.1, rfl, rfl, ⟨rfl, rfl⟩, s.sameFramer_self, ⟨rfl, rfl⟩,
      ⟨rfl, rfl, rfl⟩, rfl⟩

/-- Settles O13: the next state differs in ADL_A, ADL_B and ADL_SEEN only, and its sums are adl_update of the old ones. -/
theorem adlByteFeedsOneByte : Obligations.AdlByteFeedsOneByte := by
  refine ⟨fun _ => rfl, fun s d he => ?completes, by decide, by decide, rfl, rfl, by decide, by decide,
    fun rsv d hrsv => rejects_of_rsv_ne_zero hrsv _ d, fun d s he => exec_locked he _⟩
  case completes =>
    refine ⟨_, exec_adlByte he d, adlUpdate_fst_toNat _ d, adlUpdate_snd_toNat _ d, rfl, rfl, ?zeroByte,
      fun hsum => adlUpdate_fst_of_sum_eq_adlMod hsum, ⟨rfl, rfl⟩, s.sameFramer_self, ⟨rfl, rfl⟩, ⟨rfl, rfl, rfl⟩, rfl⟩
    case zeroByte =>
      rintro rfl reduced
      exact adlUpdate_zero_fst reduced

/-! ## The result law (41_adler32.md R129) -/

/-- ADL_A and ADL_B, as the functions of 41_adler32.md R120 and R121 take them. -/
def State.adlSums (s : State) : Half × Half := (s.adlA, s.adlB)

theorem readReg_adlerResult (s : State) : readReg .adlerResult s = adlWord s.adlSums := rfl

section
variable {s t : State}

/-- ADL.BYTE alone feeds the Adler unit, and all but ADL.INIT leave it otherwise as it was (41_adler32.md R127). -/
theorem adlSums_of_exec {i : Instr} (he : s.err = false) (hi : i ≠ .adlInit) (hx : exec i s = .next t) :
    t.adlSums = adlRun s.adlSums (adlData i).toList := by
  cases exec_cases he hx with
  | adlInit => exact absurd rfl hi
  | crcInit | crcByte | adlByte | frmStart | frmStartFails | frmByteFails | frmEndFails => rfl
  | frmByte d => exact Prod.ext (flushFull_adlA s) (flushFull_adlB s)
  | frmEnd => exact Prod.ext (closeFrame_adlA s) (closeFrame_adlB s)

/-- Along a run that ends unlocked the sums take exactly the bytes of its ADL.BYTEs, in order. -/
theorem adlSums_of_execAll {is : List Instr} (hinit : .adlInit ∉ is) (hx : execAll is s = .next t)
    (ht : t.err = false) : t.adlSums = adlRun s.adlSums (is.filterMap adlData) := by
  induction is generalizing s with
  | nil => cases hx; rfl
  | cons i is ih =>
    obtain ⟨s1, hi, his⟩ := execAll_cons_eq_next hx
    have he : s.err = false := unlocked_of_execAll hx ht
    rw [List.mem_cons, not_or] at hinit
    calc t.adlSums
      _ = adlRun s1.adlSums (is.filterMap adlData) := ih hinit.2 his
      _ = adlRun s.adlSums ((adlData i).toList ++ is.filterMap adlData) := by
        rw [adlSums_of_exec he (Ne.symm hinit.1) hi, adlRun_append]
      _ = adlRun s.adlSums ((i :: is).filterMap adlData) := by
        simp only [List.filterMap_eq_flatMap_toList, List.flatMap_cons]

theorem adlerResult_of_execAll {is : List Instr} (hs : s.adlSums = adlInitial) (hinit : .adlInit ∉ is)
    (hx : execAll is s = .next t) (ht : t.err = false) : readReg .adlerResult t = adler32 (is.filterMap adlData) := by
  rw [readReg_adlerResult, adlSums_of_execAll hinit hx ht, hs, adler32]

/-- CRC and Adler commands complete from every unlocked state and leave it unlocked (40_crc32.md R102, R103;
41_adler32.md R122, R123). -/
theorem execAll_completes_of_checksum_units {is : List Instr} (his : ∀ i ∈ is, unitOf i ≠ .frm) (he : s.err = false) :
    ∃ t, execAll is s = .next t ∧ t.err = false := by
  induction is generalizing s with
  | nil => exact ⟨s, rfl, he⟩
  | cons i is ih =>
    rw [List.forall_mem_cons] at his
    rw [execAll_cons_of_exec (exec_eq_checksumUpdate his.1 he)]
    exact ih his.2 ((checksumUpdate_err i s).trans he)

theorem filterMap_adlData_adlBytes (bs : List Byte) : (bs.map Instr.adlByte).filterMap adlData = bs := by
  rw [List.filterMap_map]
  exact List.filterMap_some

theorem adlerResult_of_adlBytes (hs : s.adlSums = adlInitial) (he : s.err = false) (bs : List Byte) :
    ∃ t, execAll (bs.map .adlByte) s = .next t ∧ t.err = false ∧ readReg .adlerResult t = adler32 bs := by
  obtain ⟨t, hx, ht⟩ := execAll_completes_of_checksum_units (is := bs.map .adlByte) (by simp [unitOf]) he
  refine ⟨t, hx, ht, ?_⟩
  rw [adlerResult_of_execAll hs (by simp) hx ht, filterMap_adlData_adlBytes]

end

/-- Settles O42: ADL.INIT and reset both leave the sums (1, 0), from where they take the bytes of the ADL.BYTEs. -/
theorem adlerResultLaw : Obligations.AdlerResultLaw := by
  refine ⟨fun s bs he => ?bytes, fun s t is he hinit hx ht => ?mixed,
    fun s bs => adlerResult_of_adlBytes (s := resetEvent s) rfl rfl bs,
    fun s t is hinit hx ht => adlerResult_of_execAll (s := resetEvent s) rfl hinit hx ht⟩
  case bytes =>
    rw [execAll_cons_of_exec (exec_adlInit he)]
    exact adlerResult_of_adlBytes (s := (s.setAdl adlInitial).setGhost _) rfl he bs
  case mixed =>
    rw [execAll_cons_of_exec (exec_adlInit he)] at hx
    exact adlerResult_of_execAll rfl hinit hx ht

end Sys2Proof.Machine
end

section
/-! PROOFS. The stream format of 42_framer.md R140 to R143: how the chunks cut the input, the lengths, and that undoing a frame
gives back its input. -/

namespace Sys2Proof.Machine

section
variable {s : List Byte} {j : Nat}

/-! ## The chunks (42_framer.md R140, R142) -/

/-- Every block but the last is full, so the block count is one more than the full windows before the last byte. -/
theorem blockCount_eq (n : Nat) : blockCount n = (n - 1) / window + 1 := by
  simp only [blockCount, window]; omega

theorem chunk_length_of_succ_lt (hj : j + 1 < blockCount s.length) : (chunk s j).length = window := by
  rw [blockCount_eq] at hj
  rw [chunk_length]
  simp only [window] at hj ⊢
  omega

theorem chunk_length_le (s : List Byte) (j : Nat) : (chunk s j).length ≤ window := by
  rw [chunk_length]; exact Nat.min_le_left _ _

/-- A chunk that has begun holds a byte. -/
theorem chunk_length_pos (hj : window * j < s.length) : 1 ≤ (chunk s j).length := by
  rw [chunk_length]
  simp only [window] at hj ⊢
  omega

/-- The first k chunks in order are the first 32768*k bytes. -/
theorem flatten_chunks (s : List Byte) (k : Nat) : ((List.range k).map (chunk s)).flatten = s.take (window * k) := by
  induction k with
  | zero => simp
  | succ k ih =>
    rw [List.range_succ, List.map_append, List.flatten_append, ih, Nat.mul_succ, List.take_add]
    simp [chunk]

/-- The chunks in order are exactly the input (42_framer.md R140). -/
theorem flatten_allChunks (s : List Byte) : ((List.range (blockCount s.length)).map (chunk s)).flatten = s := by
  rw [flatten_chunks, List.take_of_length_le]
  rw [blockCount_eq]
  simp only [window]
  omega

/-- Settles O46: the chunks are consecutive windows, and the last one begins before the last byte. -/
theorem chunksPartitionTheInput : Obligations.ChunksPartitionTheInput := by
  refine fun s => ⟨blockCount_pos _, flatten_allChunks s, fun j => chunk_length_of_succ_lt, chunk_length_le s _,
    fun hs => ?nonempty, ?empty⟩
  case nonempty =>
    have hlen : 0 < s.length := List.length_pos_iff.mpr hs
    apply chunk_length_pos
    rw [blockCount_eq]
    simp only [window]
    omega
  case empty =>
    rintro rfl
    exact ⟨rfl, rfl⟩

/-- Settles O49: m full windows end with the last byte, so no block is left for an empty chunk. -/
theorem fullMultipleHasNoEmptyBlock : Obligations.FullMultipleHasNoEmptyBlock := by
  intro s m hm hlen
  have count : blockCount s.length = m := by
    rw [blockCount_eq]
    simp only [window]
    omega
  refine ⟨by rw [frameBlocks, count], fun j hj => ?full⟩
  case full =>
    rw [chunk_length]
    simp only [window]
    omega

/-! ## The length (42_framer.md R143) -/

/-- k blocks are five header bytes each and the bytes of their chunks, whichever of them are final. -/
theorem length_flatten_blocks (final : Nat → Bool) (s : List Byte) (k : Nat) :
    ((List.range k).map fun j => block (final j) (chunk s j)).flatten.length
      = 5 * k + ((List.range k).map (chunk s)).flatten.length := by
  induction k with
  | zero => rfl
  | succ k ih =>
    simp only [List.range_succ, List.map_append, List.flatten_append, List.length_append, ih]
    simp
    omega

theorem length_frame (s : List Byte) : (frame s).length = 2 + 5 * blockCount s.length + s.length + 4 := by
  have header : zlibHeader.length = 2 := rfl
  have trailer : (be32 (adler32 s)).length = 4 := rfl
  rw [frame, frameBlocks, List.length_append, List.length_append, length_flatten_blocks, flatten_allChunks, header, trailer]
  omega

/-- Settles O47 with the length for every input, of which the three values are cases. -/
theorem frameLength : Obligations.FrameLength := by
  refine ⟨length_frame, fun s hlen => ?n0, fun s hlen => ?n32768, fun s hlen => ?n32769⟩
  all_goals rw [length_frame, hlen]; rfl

/-! ## The blocks before the last one, and the last one (42_framer.md R142, R150) -/

/-- The blocks of frame(s) before the final one, as one sequence of bytes (`frame_eq`). -/
def earlierBlocks (s : List Byte) : List Byte :=
  ((List.range (blockCount s.length - 1)).map fun j => block false (chunk s j)).flatten

/-- The chunk in the final block of frame(s) (`frame_eq`). -/
def lastChunk (s : List Byte) : List Byte := chunk s (blockCount s.length - 1)

theorem lastChunk_length_le (s : List Byte) : (lastChunk s).length ≤ window := chunk_length_le s _

theorem flatten_earlierChunks_append_lastChunk (s : List Byte) :
    ((List.range (blockCount s.length - 1)).map (chunk s)).flatten ++ lastChunk s = s := by
  have all := flatten_allChunks s
  rwa [← Nat.sub_add_cancel (blockCount_pos s.length), List.range_succ, List.map_append, List.flatten_append,
    List.map_singleton, List.flatten_singleton] at all

/-- Exactly the last block has BFINAL = 1 (42_framer.md R150). -/
theorem frame_eq (s : List Byte) :
    frame s = zlibHeader ++ earlierBlocks s ++ (block true (lastChunk s) ++ be32 (adler32 s)) := by
  obtain ⟨k, hk⟩ : ∃ k, blockCount s.length = k + 1 := ⟨_, blockCount_eq _⟩
  have notFinal : (List.range k).map (fun j => block (decide (j + 1 = k + 1)) (chunk s j))
      = (List.range k).map fun j => block false (chunk s j) :=
    List.map_congr_left fun j hj => by
      have hjk : j < k := List.mem_range.mp hj
      rw [decide_eq_false (by omega)]
  simp only [frame, frameBlocks, earlierBlocks, lastChunk, hk, List.range_succ, List.map_append, notFinal,
    Nat.add_sub_cancel]
  simp

/-! ## One more byte of input (42_framer.md R148) -/

/-- A full window of the input keeps its chunk, whatever follows. -/
theorem chunk_append (h : window * (j + 1) ≤ s.length) (t : List Byte) : chunk (s ++ t) j = chunk s j := by
  rw [Nat.mul_succ] at h
  rw [chunk, chunk, List.drop_append_of_le_length (by omega), List.take_append_of_le_length]
  rw [List.length_drop]
  omega

theorem map_block_chunk_append {k : Nat} (h : window * k ≤ s.length) (t : List Byte) :
    ((List.range k).map fun j => block false (chunk (s ++ t) j)) = (List.range k).map fun j => block false (chunk s j) :=
  List.map_congr_left fun j hj => by
    have whole : window * (j + 1) ≤ window * k := Nat.mul_le_mul_left _ (List.mem_range.mp hj)
    rw [chunk_append (whole.trans h)]

/-- After a full last chunk one more byte makes its block an earlier one. -/
theorem earlierBlocks_snoc_of_full (hs : 0 < s.length) (full : s.length % window = 0) (d : Byte) :
    earlierBlocks (s ++ [d]) = earlierBlocks s ++ block false (lastChunk s) := by
  have count : blockCount (s ++ [d]).length - 1 = (blockCount s.length - 1) + 1 := by
    rw [blockCount_eq, blockCount_eq, List.length_append, List.length_singleton]
    simp only [window] at full ⊢
    omega
  have whole : window * ((blockCount s.length - 1) + 1) ≤ s.length := by
    rw [blockCount_eq]
    simp only [window] at full ⊢
    omega
  rw [earlierBlocks, count, map_block_chunk_append whole, List.range_succ, List.map_append, List.flatten_append,
    List.map_singleton, List.flatten_singleton, earlierBlocks, lastChunk]

/-- While the last chunk has room one more byte joins it. -/
theorem earlierBlocks_snoc_of_room (room : s.length % window = 0 → s.length = 0) (d : Byte) :
    earlierBlocks (s ++ [d]) = earlierBlocks s := by
  have count : blockCount (s ++ [d]).length = blockCount s.length := by
    rw [blockCount_eq, blockCount_eq, List.length_append, List.length_singleton]
    simp only [window] at room ⊢
    omega
  have whole : window * (blockCount s.length - 1) ≤ s.length := by
    rw [blockCount_eq]
    simp only [window]
    omega
  rw [earlierBlocks, count, map_block_chunk_append whole, earlierBlocks]

/-! ## Undoing a frame (42_framer.md R159) -/

/-- A half is its two bytes, the high one first (00_scope.md R9). -/
theorem highByte_append_lowByte (h : Half) : h.extractLsb' 8 8 ++ h.extractLsb' 0 8 = h :=
  (BitVec.extractLsb'_append_extractLsb'_eq_extractLsb' (by decide)).trans BitVec.extractLsb'_eq_self

/-- The decoder reads LEN and NLEN back and finds them to match. -/
theorem unblock_block {c : List Byte} (hc : c.length ≤ window) (final : Bool) (fuel : Nat) (rest : List Byte) :
    unblock (fuel + 1) (block final c ++ rest)
      = if final then some (c, rest) else (unblock fuel rest).map fun r => (c ++ r.1, r.2) := by
  have len : (BitVec.ofNat 16 c.length).toNat = c.length := by
    rw [BitVec.toNat_ofNat]
    simp only [window] at hc
    omega
  cases final <;> simp [block, le16, unblock, highByte_append_lowByte, bfinalByte, len]

/-- Undoing non-final blocks and a final one gives their chunks in order. -/
theorem unblock_blocks (s : List Byte) {c : List Byte} (hc : c.length ≤ window) (trailer : List Byte) (js : List Nat)
    {fuel : Nat} (hfuel : js.length < fuel) :
    unblock fuel ((js.map fun j => block false (chunk s j)).flatten ++ (block true c ++ trailer))
      = some ((js.map (chunk s)).flatten ++ c, trailer) := by
  induction js generalizing fuel with
  | nil =>
    obtain ⟨fuel, rfl⟩ := Nat.exists_eq_add_one_of_ne_zero (Nat.ne_of_gt hfuel)
    simp [unblock_block hc]
  | cons j js ih =>
    obtain ⟨fuel, rfl⟩ := Nat.exists_eq_add_one_of_ne_zero (Nat.ne_of_gt (Nat.zero_lt_of_lt hfuel))
    rw [List.map_cons, List.flatten_cons, List.append_assoc, unblock_block (chunk_length_le s j),
      ih (Nat.lt_of_succ_lt_succ hfuel)]
    simp

/-- Settles O50: the blocks undo to the chunks, which are the input, and the trailer is the one of the input. -/
theorem unframeInvertsFrame : Obligations.UnframeInvertsFrame := by
  intro s
  have fuel : (List.range (blockCount s.length - 1)).length < (frame s).length := by
    rw [List.length_range, length_frame]
    omega
  have undone : unblock (frame s).length (earlierBlocks s ++ (block true (lastChunk s) ++ be32 (adler32 s)))
      = some (s, be32 (adler32 s)) := by
    rw [earlierBlocks, unblock_blocks s (lastChunk_length_le s) _ _ fuel, flatten_earlierChunks_append_lastChunk]
  have header : (frame s).take 2 = zlibHeader := by rw [frame_eq]; rfl
  have body : (frame s).drop 2 = earlierBlocks s ++ (block true (lastChunk s) ++ be32 (adler32 s)) := by
    rw [frame_eq]; rfl
  simp [unframe, header, body, undone]

end

end Sys2Proof.Machine
end

section
/-! PROOFS. The framer of 42_framer.md: its three commands and its result law. -/

namespace Sys2Proof.Machine

/-! ## The three commands (42_framer.md R145 to R147) -/

/-- Settles O14: the next state differs in the framer and the emitted header only. -/
theorem frmStartOpensAFrame : Obligations.FrmStartOpensAFrame := by
  refine ⟨rfl, fun s he ho => ?completes, ⟨_, exec_frmStart_closed rfl rfl, ⟨rfl, rfl, rfl⟩, by decide⟩,
    fun s he ho => exec_frmStart_open he ho, fun rsv d => rejects_of_dataless (by decide), fun s he => exec_locked he _⟩
  case completes =>
    obtain ⟨statusOpen, -, -, -, -, statusCount⟩ := statusLayout (openFrame s)
    exact ⟨_, exec_frmStart_closed he ho, ⟨rfl, rfl, rfl⟩, rfl, rfl, rfl, rfl, rfl, fun _ => rfl, statusOpen,
      statusCount, ⟨rfl, rfl⟩, ⟨rfl, rfl, rfl⟩, ⟨rfl, rfl⟩, rfl⟩

section
variable {s t u : State} {seen : List Byte}

theorem frmCount_eq_fullCount_iff : s.frmCount = fullCount ↔ s.frmCount.toNat = window :=
  BitVec.toNat_inj.symm

theorem storeByte_frmCount_toNat (room : s.frmCount.toNat < window) (d : Byte) :
    (storeByte d s).frmCount.toNat = s.frmCount.toNat + 1 := by
  simp only [window] at room
  rw [storeByte_frmCount, BitVec.toNat_add]
  simp
  omega

/-- A full buffer is emitted and then empty (42_framer.md R146). -/
theorem frmByte_full (hc : s.frmCount = fullCount) (d : Byte) :
    s.Emits (storeByte d (flushFull s)) (block false (bufTake s window)) ∧ (flushFull s).frmCount = 0 := by
  simp [flushFull_full hc]

/-- With room in the buffer nothing is emitted (42_framer.md R146). -/
theorem frmByte_room (hc : s.frmCount ≠ fullCount) (d : Byte) :
    s.Emits (storeByte d (flushFull s)) [] ∧ (flushFull s).frmCount = s.frmCount := by
  simp [flushFull_notFull hc]

end

/-- Settles O15: a full buffer is emitted first; then there is room, and storing the byte emits nothing. -/
theorem frmByteCollectsOneByte : Obligations.FrmByteCollectsOneByte := by
  refine ⟨fun _ => rfl, fun s d he ho hc => ?completes, fun s d he ho => exec_frmByte_closed he ho d,
    fun rsv d hrsv => rejects_of_rsv_ne_zero hrsv _ d, fun d s he => exec_locked he _⟩
  case completes =>
    obtain ⟨-, -, -, -, -, statusCount⟩ := statusLayout (storeByte d (flushFull s))
    refine ⟨_, exec_frmByte_open he ho hc d, fun hroom => ?room, fun hfull => ?full, ?stored, fun j hj => ?kept, ?sumA,
      ?sumB, ?seen, ?isOpen, statusCount, ⟨flushFull_crcState s, flushFull_crcSeen s⟩,
      ⟨flushFull_adlA s, flushFull_adlB s, flushFull_adlSeen s⟩, ⟨flushFull_err s, flushFull_errCode s⟩,
      flushFull_env s⟩
    case room =>
      obtain ⟨emits, count⟩ := frmByte_room (mt frmCount_eq_fullCount_iff.mp (Nat.ne_of_lt hroom)) d
      refine ⟨emits, ?_, count⟩
      rw [storeByte_frmCount_toNat (count ▸ hroom), count]
    case full =>
      obtain ⟨emits, count⟩ := frmByte_full (frmCount_eq_fullCount_iff.mpr hfull) d
      have ⟨queue, _, _⟩ := emits
      refine ⟨emits, ?_, count, ?_⟩
      · rw [storeByte_frmCount_toNat (by rw [count]; decide), count]
        rfl
      · rw [queue, List.length_append, block_length, length_bufTake]
        rfl
    case stored => exact Memory.read_write_same _ _ d
    case kept => rw [storeByte_frmBuf, Memory.read_write_other _ d hj, flushFull_frmBuf]
    case sumA => rw [storeByte_frmA, adlUpdate_fst_toNat, flushFull_frmA]; rfl
    case sumB => rw [storeByte_frmB, adlUpdate_snd_toNat, flushFull_frmB]; rfl
    case seen => rw [storeByte_frmSeen, flushFull_frmSeen]
    case isOpen => rw [storeByte_frmOpen, flushFull_frmOpen, ho]

/-- Settles O16: the next state differs in FRM_OPEN, FRM_COUNT, FRM_SEEN and the emitted bytes only. -/
theorem frmEndClosesTheFrame : Obligations.FrmEndClosesTheFrame := by
  refine ⟨rfl, fun s he ho hc => ?completes, fun s he ho => exec_frmEnd_closed he ho,
    fun rsv d => rejects_of_dataless (by decide), fun s he => exec_locked he _⟩
  case completes =>
    obtain ⟨statusOpen, -, -, -, -, statusCount⟩ := statusLayout (closeFrame s)
    refine ⟨_, exec_frmEnd_open he ho hc, ⟨closeFrame_emitQ s, closeFrame_outFifo s, closeFrame_outLog s⟩, ?length,
      closeFrame_frmOpen s, closeFrame_frmCount s, closeFrame_frmA s, closeFrame_frmB s, fun i => ?kept,
      closeFrame_frmSeen s, statusOpen.trans (closeFrame_frmOpen s), statusCount.trans (closeFrame_frmCount s),
      ⟨closeFrame_crcState s, closeFrame_crcSeen s⟩, ⟨closeFrame_adlA s, closeFrame_adlB s, closeFrame_adlSeen s⟩,
      ⟨closeFrame_err s, closeFrame_errCode s⟩, closeFrame_env s⟩
    case length =>
      rw [closeFrame_emitQ, List.length_append, List.length_append, block_length, length_bufTake]
      rfl
    case kept => rw [closeFrame_frmBuf]

/-! ## What the buffer holds (10_state.md R36) -/

section
variable {s t u : State} {seen a b : List Byte}

theorem bufTake_of_map_read {n : Nat} (h : (List.range n).map (Memory.read s.frmBuf) = seen.map some) :
    bufTake s n = seen := by
  have length : n = seen.length := by simpa using congrArg List.length h
  refine List.ext_getElem (by simp [length]) fun i hi hseen => ?_
  have read : Memory.read s.frmBuf i = some seen[i] := by
    have := List.getElem_of_eq h (i := i) (by simpa using hi)
    rwa [List.getElem_map, List.getElem_map, List.getElem_range] at this
  simp [bufTake, bufRead, read]

/-- The buffer of an open frame holds the chunk that FRM.END makes the final block of. -/
theorem State.FrameInv.bufTake_eq_lastChunk (h : s.FrameInv seen) : bufTake s s.frmCount.toNat = lastChunk seen := by
  have count := h.count_eq
  have empty := h.count_zero
  have start : window * (blockCount seen.length - 1) = seen.length - s.frmCount.toNat := by
    rw [blockCount_eq]
    simp only [window] at count ⊢
    omega
  have short : (seen.drop (seen.length - s.frmCount.toNat)).length ≤ window := by
    have := h.count_le
    rw [List.length_drop]
    omega
  rw [bufTake_of_map_read h.buf_eq, lastChunk, chunk, start, List.take_of_length_le short]

/-- Once a full buffer has been emitted there is room for the next byte (42_framer.md R146). -/
theorem State.FrameInv.flushFull_roomInv (h : s.FrameInv seen) : (flushFull s).RoomInv seen := by
  by_cases hc : s.frmCount = fullCount
  · rw [flushFull_full hc]
    exact { count_eq := (h.length_of_full hc).symm, adler_eq := h.adler_eq, buf_eq := by simp }
  · rw [flushFull_notFull hc]
    exact { count_eq := h.length_of_notFull hc, adler_eq := h.adler_eq, buf_eq := h.buf_eq }

/-! ## The result law (42_framer.md R158) -/

theorem State.Emits.trans (h : s.Emits t a) (h' : t.Emits u b) : s.Emits u (a ++ b) := by
  obtain ⟨hq, hf, hl⟩ := h
  obtain ⟨hq', hf', hl'⟩ := h'
  exact ⟨by rw [hq', hq, List.append_assoc], hf'.trans hf, by rw [hl', hl, List.append_assoc]⟩

/-- The frame that was opened in s is still open in t and has taken the bytes seen. Its header and every block but the last
have been emitted since s (42_framer.md R148). -/
structure State.Framing (s t : State) (seen : List Byte) : Prop where
  unlocked : t.err = false
  isOpen   : t.frmOpen = true
  frameInv : t.FrameInv seen
  emits    : s.Emits t (zlibHeader ++ earlierBlocks seen)

theorem openFrame_framing (he : s.err = false) : s.Framing (openFrame s) [] where
  unlocked := he
  isOpen := rfl
  frameInv := frameInv_nil rfl rfl rfl
  emits := ⟨rfl, rfl, rfl⟩

theorem checksumUpdate_sameFramer (i : Instr) (s : State) : s.SameFramer (checksumUpdate i s) := by
  cases i <;> exact s.sameFramer_self

theorem checksumUpdate_sameOut (i : Instr) (s : State) : s.SameOut (checksumUpdate i s) := by
  cases i <;> exact ⟨rfl, rfl, rfl⟩

namespace State.Framing

/-- A CRC or Adler command neither touches the frame nor emits (42_framer.md R156). -/
theorem afterChecksum (h : s.Framing t seen) (i : Instr) : s.Framing (checksumUpdate i t) seen where
  unlocked := (checksumUpdate_err i t).trans h.unlocked
  isOpen := (checksumUpdate_frmOpen i t).trans h.isOpen
  frameInv := h.frameInv.of_sameFramer (checksumUpdate_sameFramer i t)
  emits := by
    obtain ⟨hq, hf, hl⟩ := checksumUpdate_sameOut i t
    rw [State.Emits, hq, hf, hl]
    exact h.emits

/-- FRM.BYTE emits exactly what its byte adds to the blocks before the last one. -/
theorem afterByte (h : s.Framing t seen) (d : Byte) : s.Framing (storeByte d (flushFull t)) (seen ++ [d]) where
  unlocked := (flushFull_err t).trans h.unlocked
  isOpen := (flushFull_frmOpen t).trans h.isOpen
  frameInv := storeByte_frameInv h.frameInv.flushFull_roomInv d
  emits := by
    by_cases hc : t.frmCount = fullCount
    · have count : t.frmCount.toNat = window := frmCount_eq_fullCount_iff.mp hc
      have nonempty : 0 < seen.length := Nat.pos_of_ne_zero fun hnil => by
        have := h.frameInv.count_zero.mpr hnil
        simp [count, window] at this
      have emits := h.emits.trans (frmByte_full hc d).1
      rwa [← count, h.frameInv.bufTake_eq_lastChunk, List.append_assoc,
        ← earlierBlocks_snoc_of_full nonempty (h.frameInv.length_of_full hc)] at emits
    · have room (hz : seen.length % window = 0) : seen.length = 0 :=
        h.frameInv.count_zero.mp ((h.frameInv.length_of_notFull hc).trans hz)
      have emits := h.emits.trans (frmByte_room hc d).1
      rwa [List.append_nil, ← earlierBlocks_snoc_of_room room d] at emits

theorem afterExec {i : Instr} (h : s.Framing t seen) (hstart : i ≠ .frmStart) (hend : i ≠ .frmEnd) :
    ∃ u, exec i t = .next u ∧ s.Framing u (seen ++ (frmData i).toList) := by
  cases i with
  | crcInit | crcByte | adlInit | adlByte =>
    refine ⟨_, exec_eq_checksumUpdate (by simp [unitOf]) h.unlocked, ?_⟩
    simpa [frmData] using h.afterChecksum _
  | frmByte d => exact ⟨_, exec_frmByte_open h.unlocked h.isOpen h.frameInv.count_le d, h.afterByte d⟩
  | frmStart => exact absurd rfl hstart
  | frmEnd => exact absurd rfl hend

theorem afterExecAll (h : s.Framing t seen) {is : List Instr} (hstart : .frmStart ∉ is) (hend : .frmEnd ∉ is) :
    ∃ u, execAll is t = .next u ∧ s.Framing u (seen ++ is.filterMap frmData) := by
  induction is generalizing t seen with
  | nil => exact ⟨t, rfl, by simpa using h⟩
  | cons i is ih =>
    rw [List.mem_cons, not_or] at hstart hend
    obtain ⟨t1, hi, h1⟩ := h.afterExec (Ne.symm hstart.1) (Ne.symm hend.1)
    obtain ⟨u, his, hu⟩ := ih h1 hstart.2 hend.2
    refine ⟨u, (execAll_cons_of_exec hi is).trans his, ?_⟩
    simpa only [List.filterMap_eq_flatMap_toList, List.flatMap_cons, List.append_assoc] using hu

/-- FRM.END adds the final block and the trailer to the blocks already emitted: the whole frame. -/
theorem closeFrame_emits (h : s.Framing t seen) : s.Emits (closeFrame t) (frame seen) := by
  have closing : t.Emits (closeFrame t) (block true (lastChunk seen) ++ be32 (adler32 seen)) := by
    rw [← h.frameInv.bufTake_eq_lastChunk, ← h.frameInv.adler_eq]
    exact ⟨closeFrame_emitQ t, closeFrame_outFifo t, closeFrame_outLog t⟩
  rw [frame_eq]
  exact h.emits.trans closing

end State.Framing

theorem execAll_append_of_execAll {is : List Instr} (h : execAll is s = .next t) (js : List Instr) :
    execAll (is ++ js) s = execAll js t := by
  rw [execAll_append, h]

theorem filterMap_frmData_frmBytes (bs : List Byte) : (bs.map Instr.frmByte).filterMap frmData = bs := by
  rw [List.filterMap_map]
  exact List.filterMap_some

end

/-- Settles O43: the frame takes the bytes of the FRM.BYTEs and nothing else, and FRM.END completes its output. -/
theorem frameResultLaw : Obligations.FrameResultLaw := by
  intro s is he ho hstart hend
  obtain ⟨t, his, h⟩ := (openFrame_framing he).afterExecAll hstart hend
  refine ⟨closeFrame t, ?run, (closeFrame_err t).trans h.unlocked, closeFrame_frmOpen t, h.closeFrame_emits⟩
  case run =>
    rw [execAll_cons_of_exec (exec_frmStart_closed he ho), execAll_append_of_execAll his,
      execAll_cons_of_exec (exec_frmEnd_open h.unlocked h.isOpen h.frameInv.count_le)]
    rfl

/-- The commands that frame bs emit frame(bs) (42_framer.md R158). -/
theorem execAll_frameCommands {s : State} (he : s.err = false) (ho : s.frmOpen = false) (bs : List Byte) :
    ∃ t, execAll (frameCommands bs) s = .next t ∧ t.err = false ∧ t.frmOpen = false ∧ s.Emits t (frame bs) := by
  have law := frameResultLaw s (bs.map .frmByte) he ho (by simp) (by simp)
  rwa [filterMap_frmData_frmBytes] at law

/-- Settles O44: the first frame leaves the block as the second one needs it. -/
theorem framesFollowBackToBack : Obligations.FramesFollowBackToBack := by
  intro s x y he ho
  obtain ⟨t, hx, ht, hclosed, emitsX⟩ := execAll_frameCommands he ho x
  obtain ⟨u, hy, hu, huclosed, emitsY⟩ := execAll_frameCommands ht hclosed y
  exact ⟨u, (execAll_append_of_execAll hx _).trans hy, hu, huclosed, emitsX.trans emitsY⟩

/-- Settles O48: the frame by computing it, and its commands by the result law for no bytes. -/
theorem emptyFrame : Obligations.EmptyFrame := by
  have value : frame [] = [0x78, 0x01, 0x01, 0x00, 0x00, 0xFF, 0xFF, 0x00, 0x00, 0x00, 0x01] := by decide
  refine ⟨value, fun s he ho => ?_⟩
  obtain ⟨t, hrun, -, -, emits⟩ := execAll_frameCommands he ho []
  exact ⟨t, hrun, value ▸ emits⟩

end Sys2Proof.Machine
end

section
/-! PROOFS. The errors of 60_exceptions.md: the order of the checks, precision, the lock, and the faults of a step. -/

namespace Sys2Proof.Machine

section
variable {s t : State} {i : Instr} {r : Fault}

/-! ## The framer's check (60_exceptions.md R172)

The last check of a command word: the commands it concerns, and when it fails. -/

/-- FRM.START with a frame open, FRM.BYTE or FRM.END with none open. -/
def FrameCheckFails (i : Instr) (s : State) : Prop :=
  (i = .frmStart ∧ s.frmOpen = true) ∨ (((∃ d, i = .frmByte d) ∨ i = .frmEnd) ∧ s.frmOpen = false)

theorem op_encode_eq_frmStart_iff : (fieldsOf (encode i)).op = 0x21 ↔ i = .frmStart := by
  cases i <;> simp [encode, fieldsOf_packWord]

theorem op_encode_mem_needsFrame_iff :
    (fieldsOf (encode i)).op ∈ ([0x22, 0x23] : List Byte) ↔ (∃ d, i = .frmByte d) ∨ i = .frmEnd := by
  cases i <;> simp [encode, fieldsOf_packWord]

/-- A command changes ERR only by failing the framer's check, and then it changes nothing else (60_exceptions.md R174). -/
theorem ExecCase.sameErr_or_raises (h : ExecCase s i t) :
    s.SameErr t ∨ (FrameCheckFails i s ∧ ∃ e, t = raiseError e s) := by
  cases h with
  | crcInit | crcByte | adlInit | adlByte | frmStart => exact .inl ⟨rfl, rfl⟩
  | frmByte d => exact .inl ⟨flushFull_err s, flushFull_errCode s⟩
  | frmEnd => exact .inl ⟨closeFrame_err s, closeFrame_errCode s⟩
  | frmStartFails ho => exact .inr ⟨.inl ⟨rfl, ho⟩, _, rfl⟩
  | frmByteFails d ho => exact .inr ⟨.inr ⟨.inl ⟨d, rfl⟩, ho⟩, _, rfl⟩
  | frmEndFails ho => exact .inr ⟨.inr ⟨.inr rfl, ho⟩, _, rfl⟩

/-! ## What stops a command or an access (notes/assumptions/5.md)

Only FRM_COUNT beyond the buffer's capacity. -/

/-- The answer is a next state, or the stop of an index that FRM_BUF does not have. -/
abbrev CompletesInRange (s : State) (answer : Result) : Prop :=
  (∃ t, answer = .next t) ∨ (window < s.frmCount.toNat ∧ answer = .fault .frmBufOutOfRange)

theorem unlessLocked_completesInRange {answer : Result} (h : CompletesInRange s answer) :
    CompletesInRange s (unlessLocked s answer) := by
  unfold unlessLocked
  split
  · exact .inl ⟨s, rfl⟩
  · exact h

theorem withinBuffer_completesInRange (s t : State) : CompletesInRange s (withinBuffer s t) := by
  obtain hc | hc := Nat.lt_or_ge window s.frmCount.toNat
  · exact .inr ⟨hc, withinBuffer_fault hc t⟩
  · exact .inl ⟨t, withinBuffer_next hc t⟩

theorem exec_completesInRange (i : Instr) (s : State) : CompletesInRange s (exec i s) := by
  cases i with
  | crcInit | crcByte | adlInit | adlByte | frmStart => exact unlessLocked_completesInRange (.inl ⟨_, rfl⟩)
  | frmByte | frmEnd =>
    refine unlessLocked_completesInRange ?_
    split
    · exact withinBuffer_completesInRange s _
    · exact .inl ⟨_, rfl⟩

theorem commandStep_locked (he : s.err = true) (v : Word) : commandStep v s = .next s := if_pos he

theorem commandStep_completesInRange (v : Word) (s : State) : CompletesInRange s (commandStep v s) := by
  unfold commandStep
  split
  · exact .inl ⟨s, rfl⟩
  · split
    · exact exec_completesInRange _ s
    · exact .inl ⟨_, rfl⟩

theorem performAccess_completesInRange (g : Reg) (op : BusOp) (s : State) :
    CompletesInRange s (performAccess g op s) := by
  cases op with
  | read => exact .inl ⟨_, rfl⟩
  | write v =>
    by_cases hg : g = .cmd
    · subst hg
      exact commandStep_completesInRange v s
    · exact .inl ⟨s, performAccess_write_readOnly v hg⟩

/-- A host move is refused, changes only the surroundings, or is its access, accepted. -/
theorem hostMove_refuses_or_moves_or_performs (s : State) : (∃ why, hostMove s = .refused why)
    ∨ (∃ e : Env, hostMove s = .next (s.setEnv e))
    ∨ ∃ (g : Reg) (op : BusOp) (e : Env), hostMove s = performAccess g op (s.setEnv e) := by
  cases hn : nextAccess s with
  | none => exact .inr (.inl ⟨s.env, by simp only [hostMove, hn]; rfl⟩)
  | some next =>
    obtain ⟨a, s1⟩ := next
    obtain ⟨e, rfl, -⟩ := nextAccess_setEnv hn
    cases ha : accessTarget a with
    | error why => exact .inl ⟨why, hostMove_refused hn ha⟩
    | ok g =>
      by_cases hq : (s.setEnv e).emitQ = []
      · exact .inr (.inr ⟨g, a.op, e, hostMove_accepted hn ha hq⟩)
      · exact .inr (.inl ⟨_, hostMove_waits (s1 := s.setEnv e) hn ha hq⟩)

theorem hostMove_fault (h : hostMove s = .fault r) : r = .frmBufOutOfRange := by
  obtain ⟨why, hx⟩ | ⟨e, hx⟩ | ⟨g, op, e, hx⟩ := hostMove_refuses_or_moves_or_performs s
  · cases hx.symm.trans h
  · cases hx.symm.trans h
  · obtain ⟨t, ht⟩ | ⟨-, hf⟩ := performAccess_completesInRange g op (s.setEnv e)
    · cases (hx.trans ht).symm.trans h
    · cases (hx.trans hf).symm.trans h
      rfl

/-! ## What a locked block does with an access (60_exceptions.md R175, R176) -/

theorem performAccess_locked (he : s.err = true) (g : Reg) (op : BusOp) :
    ∃ e : Env, performAccess g op s = .next (s.setEnv e) := by
  cases op with
  | read => exact ⟨_, rfl⟩
  | write v =>
    refine ⟨s.env, ?_⟩
    by_cases hg : g = .cmd
    · subst hg
      exact commandStep_locked he v
    · exact performAccess_write_readOnly v hg

/-- The host moves on and the block stays as it is, or the access is outside the interface. -/
theorem hostMove_locked (he : s.err = true) :
    (∃ why, hostMove s = .refused why) ∨ ∃ e : Env, hostMove s = .next (s.setEnv e) := by
  obtain hrefused | hmoves | ⟨g, op, e, hx⟩ := hostMove_refuses_or_moves_or_performs s
  · exact .inl hrefused
  · exact .inr hmoves
  · obtain ⟨e1, hp⟩ := performAccess_locked (s := s.setEnv e) he g op
    exact .inr ⟨e1, hx.trans hp⟩

/-- Until reset the units, the framer and the error registers of a locked block are frozen. -/
theorem step_locked (he : s.err = true) (hx : step s = .next t) (hno : s.NoReset) : s.SameRegisters t := by
  cases step_cases hx with
  | host s0 hs hmove =>
    subst hs
    obtain ⟨why, hrefused⟩ | ⟨e, hnext⟩ := hostMove_locked (s := s.setEnv { s.env with moves := s.env.moves.tail }) he
    · cases hrefused.symm.trans hmove
    · cases hnext.symm.trans hmove
      exact (State.OutputFlows.refl s).sameRegisters
  | transfer s0 hs hmove => subst hs hmove; exact (transferStep_flows _).sameRegisters
  | sink s0 hs hmove => subst hs hmove; exact (sinkStep_flows _).sameRegisters
  | reset rest hm hmove => exact absurd (by rw [hm]; rfl) hno
  | idle hm hsame => subst hsame; exact (State.OutputFlows.refl _).sameRegisters

/-! ## How ERR comes to be set (60_exceptions.md R174) -/

theorem CmdError.code_mem (e : CmdError) : CmdError.code e ∈ ([0x1, 0x2, 0x3, 0x4] : List Nibble) := by
  cases e <;> decide

/-- Moving output leaves ERR as it is. -/
theorem State.OutputFlows.err_eq (h : s.OutputFlows t) : t.err = s.err := by
  obtain ⟨-, -, -, ⟨same, -⟩, -⟩ := h.sameRegisters
  exact same

theorem commandStep_raises {v : Word} (he : s.err = false) (hx : commandStep v s = .next t) (ht : t.err = true) :
    ∃ e, t = raiseError e s := by
  obtain ⟨locked, -⟩ | ⟨-, e, -, rfl⟩ | ⟨-, i, -, hi⟩ := commandStep_cases hx
  · cases he.symm.trans locked
  · exact ⟨e, rfl⟩
  · obtain ⟨same, -⟩ | ⟨-, hraises⟩ := (exec_cases he hi).sameErr_or_raises
    · cases ht.symm.trans (same.trans he)
    · exact hraises

/-- The write to CMD whose command fails has left the host or the bus and has no other effect outside the block. -/
theorem hostMove_raises (he : s.err = false) (hx : hostMove s = .next t) (ht : t.err = true) :
    ∃ (e : CmdError) (env : Env), t = raiseError e (s.setEnv env) ∧ env.reads = s.env.reads
      ∧ env.taken = s.env.taken := by
  obtain ⟨-, rfl⟩ | ⟨a, s1, g, hn, -, haccess⟩ := hostMove_cases hx
  · cases he.symm.trans ht
  · obtain ⟨env, rfl, -, hreads, htaken, -⟩ := nextAccess_setEnv hn
    obtain ⟨-, rfl⟩ | ⟨-, -, rfl⟩ | ⟨-, -, -, rfl⟩ | ⟨-, v, -, -, hv⟩ := haccess
    · cases he.symm.trans ht
    · cases he.symm.trans ht
    · cases he.symm.trans ht
    · obtain ⟨e, rfl⟩ := commandStep_raises (s := s.setEnv env) he hv ht
      exact ⟨e, env, rfl, hreads, htaken⟩

/-! ## How a step comes to fault (60_exceptions.md R186, 70_reset_and_hazards.md R195) -/

/-- Nothing is scheduled, output waits, OUT_FIFO is full and the sink takes no more bytes. -/
abbrev State.SinkStopped (s : State) : Prop :=
  s.env.moves = [] ∧ s.emitQ ≠ [] ∧ Config.outDepth ≤ s.outFifo.length ∧ s.env.outReady = false

theorem step_sinkStopped (h : s.SinkStopped) : step s = .fault .hang := by
  obtain ⟨hm, hq, full, hr⟩ := h
  have noTransfer : transferEnabled s = false := by simp [transferEnabled, Nat.not_lt.mpr full]
  have stalled : hostReady s = false := by simp [hostReady, hq]
  simp [step_unscheduled hm, idleMove, noTransfer, stalled, hr, hq]

/-- With output waiting, no transfer means a full OUT_FIFO, so out_valid is 1 and out_ready is what is missing. -/
theorem idleMove_fault (h : idleMove s = .fault r) : hostMove s = .fault r
    ∨ (r = .hang ∧ s.emitQ ≠ [] ∧ Config.outDepth ≤ s.outFifo.length ∧ s.env.outReady = false) := by
  unfold idleMove at h
  split_ifs at h with htransfer hready hsink hq
  · exact .inl h
  · cases h
    have hq : s.emitQ ≠ [] := by simpa using hq
    have full : Config.outDepth ≤ s.outFifo.length := by simpa [transferEnabled, hq] using htransfer
    have valid : s.outFifo ≠ [] := List.ne_nil_of_length_pos (Nat.lt_of_lt_of_le outDepth_pos full)
    exact .inr ⟨rfl, hq, full, by simpa [outValid, valid] using hsink⟩

/-- A fault is the host's command's, or it is the hang. -/
theorem step_fault (h : step s = .fault r) :
    (∃ e : Env, hostMove (s.setEnv e) = .fault r) ∨ (r = .hang ∧ s.SinkStopped) := by
  cases hm : s.env.moves with
  | nil =>
    rw [step_unscheduled hm] at h
    obtain hhost | ⟨rfl, hstop⟩ := idleMove_fault h
    · exact .inl ⟨s.env, hhost⟩
    · exact .inr ⟨rfl, hm, hstop⟩
  | cons m rest =>
    rw [step_scheduled hm] at h
    cases m with
    | host => exact .inl ⟨_, h⟩
    | transfer | sink | reset => cases h

end

/-- Settles O18: the word fails in the decoder, or it is a command's word and the framer's check decides. -/
theorem firstFailingCheckDecidesTheCode : Obligations.FirstFailingCheckDecidesTheCode := by
  refine ⟨fun v s he hc => ⟨fun hrsv => ?reserved, fun hrsv hop => ?unassigned, fun hrsv hop hdata => ?data,
    fun hwf hop ho => ?notOpen, fun hwf hop ho => ?alreadyOpen, fun hwf hok => ?completes⟩, fun s he _ => ?examples⟩
  case reserved =>
    exact rejects_of_decode (e := .reservedNonzero) (decode_of_rsv_ne_zero (by simpa [CmdFields.rsvZero] using hrsv)) s he
  case unassigned =>
    have rsv : (fieldsOf v).rsv = 0 := by simpa [CmdFields.rsvZero] using hrsv
    obtain ⟨dataless, byte⟩ : (fieldsOf v).op ∉ datalessOps ∧ (fieldsOf v).op ∉ byteOps := by
      simpa [CmdFields.opAssigned] using hop
    exact rejects_of_decode (e := .illegalOpcode)
      ((decode_of_rsv_eq_zero rsv).trans (decodeOp_of_unassigned dataless byte)) s he
  case data =>
    have rsv : (fieldsOf v).rsv = 0 := by simpa [CmdFields.rsvZero] using hrsv
    obtain ⟨dataless, data⟩ : (fieldsOf v).op ∈ datalessOps ∧ (fieldsOf v).data ≠ 0 := by
      simpa [CmdFields.dataLegal] using hdata
    exact rejects_of_decode (e := .reservedNonzero)
      ((decode_of_rsv_eq_zero rsv).trans (decodeOp_of_data_ne_zero dataless data)) s he
  case notOpen =>
    obtain ⟨i, -, rfl⟩ := decode_of_wellFormed hwf
    rw [commandStep_encode]
    obtain ⟨d, rfl⟩ | rfl := op_encode_mem_needsFrame_iff.mp hop
    · exact exec_frmByte_closed he ho d
    · exact exec_frmEnd_closed he ho
  case alreadyOpen =>
    obtain ⟨i, -, rfl⟩ := decode_of_wellFormed hwf
    rw [commandStep_encode, op_encode_eq_frmStart_iff.mp hop]
    exact exec_frmStart_open he ho
  case completes =>
    obtain ⟨i, -, rfl⟩ := decode_of_wellFormed hwf
    obtain ⟨needsOpen, needsClosed⟩ := hok
    obtain ⟨t, ht⟩ : ∃ t, exec i s = .next t :=
      (exec_completesInRange i s).resolve_right fun ⟨outOfRange, _⟩ => absurd hc (Nat.not_le.mpr outOfRange)
    refine ⟨t, (commandStep_encode i s).trans ht, ?_⟩
    obtain same | ⟨⟨hi, ho⟩ | ⟨hi, ho⟩, -⟩ := (exec_cases he ht).sameErr_or_raises
    · exact same
    · cases ho.symm.trans (needsClosed (op_encode_eq_frmStart_iff.mpr hi))
    · cases ho.symm.trans (needsOpen (op_encode_mem_needsFrame_iff.mpr hi))
  case examples =>
    exact ⟨rejects_of_rsv_ne_zero (rsv := 1) (by decide) 0x23 0x00 s he,
      rejects_of_decode (e := .illegalOpcode) (by decide) s he,
      rejects_of_dataless (op := 0x23) (rsv := 0) (d := 0x05) (by decide) (by decide) s he⟩

/-- Settles O19: only a host move sets ERR, by a command that fails. -/
theorem errorsArePrecise : Obligations.ErrorsArePrecise := by
  intro s t hx he ht
  cases step_cases hx with
  | host s0 hs hmove =>
    subst hs
    obtain ⟨e, env, rfl, hreads, htaken⟩ :=
      hostMove_raises (s := s.setEnv { s.env with moves := s.env.moves.tail }) he hmove ht
    exact ⟨⟨rfl, rfl⟩, ⟨rfl, rfl, rfl⟩, s.sameFramer_self, ⟨rfl, rfl, rfl⟩, CmdError.code_mem e, hreads, htaken⟩
  | transfer s0 hs hmove => subst hs hmove; cases ht.symm.trans ((transferStep_flows _).err_eq.trans he)
  | sink s0 hs hmove => subst hs hmove; cases ht.symm.trans ((sinkStep_flows _).err_eq.trans he)
  | reset rest hm hmove => subst hmove; cases ht
  | idle hm hsame => subst hsame; cases he.symm.trans ht

/-- Settles O20: every command and every CMD word meets the lock first, and no step but reset lifts it. -/
theorem lockIgnoresEveryCommand : Obligations.LockIgnoresEveryCommand := by
  intro s he
  refine ⟨commandStep_locked he, exec_locked he, fun _ => rfl, fun ⟨unlocked, _⟩ => ?notNormal, fun t hx hno => ?kept⟩
  case notNormal => cases unlocked.symm.trans he
  case kept =>
    obtain ⟨-, -, -, ⟨err, code⟩, -⟩ := step_locked he hx hno
    exact ⟨err.trans he, code⟩

/-- Settles O21: the frame of a locked step, the reset event's values, and no command that could fault. -/
theorem onlyResetLeavesTheLock : Obligations.OnlyResetLeavesTheLock := by
  intro s he
  refine ⟨fun t hx hno => step_locked he hx hno, fun hm => step_scheduled_of_head hm, fun _ => ⟨rfl, rfl⟩, fun r hf => ?_⟩
  obtain ⟨e, hhost⟩ | ⟨hang, -⟩ := step_fault hf
  · obtain ⟨why, hrefused⟩ | ⟨e1, hnext⟩ := hostMove_locked (s := s.setEnv e) he
    · cases hrefused.symm.trans hhost
    · cases hnext.symm.trans hhost
  · exact hang

/-- Settles O35: the host's own fault is another one, so a hang is the idle step's. -/
theorem hangExactlyIfTheSinkHasStopped : Obligations.HangExactlyIfTheSinkHasStopped := by
  refine fun s => ⟨fun h => ?_, step_sinkStopped⟩
  obtain ⟨e, hhost⟩ | ⟨-, hstop⟩ := step_fault h
  · cases hostMove_fault hhost
  · exact hstop

end Sys2Proof.Machine
end

section
/-! PROOFS. The reset event of 70_reset_and_hazards.md R190: what the registers read after it, and what stays of the
surroundings. -/

namespace Sys2Proof.Machine

/-- The reset event leaves the block as State.reset has it, so each register reads the same, whatever was there before. -/
theorem readReg_resetEvent (r : Reg) (s : State) : readReg r (resetEvent s) = readReg r State.reset :=
  readReg_setEnv r State.reset _

/-- The sink has taken the same bytes as before: reset moves them to those of earlier, and the output it discards does not
join them (70_reset_and_hazards.md R191). -/
theorem taken_resetEvent (s : State) :
    (resetEvent s).env.takenEarlier ++ (resetEvent s).env.taken = s.env.takenEarlier ++ s.env.taken :=
  List.append_nil _

/-- Settles O37: a scheduled reset is the reset event, which takes every element but the surroundings from State.reset. -/
theorem resetGivesTheResetValues : Obligations.ResetGivesTheResetValues := by
  intro s hm
  refine ⟨_, step_scheduled_of_head hm, rfl, rfl, rfl, rfl, rfl, rfl, rfl, rfl, rfl, rfl, rfl, rfl, rfl, rfl, rfl,
    taken_resetEvent _, ?status, ?crcResult, ?adlerResult⟩
  case status => exact (readReg_resetEvent .status _).trans (by decide)
  case crcResult => exact (readReg_resetEvent .crcResult _).trans (by decide)
  case adlerResult => exact (readReg_resetEvent .adlerResult _).trans (by decide)

end Sys2Proof.Machine
end
